-- ==== Sys2Proof/Word.lean ====
section
/-! DEFINITION. The words of the flipdisc display encoder (rules R5 and R6 of 00_scope.md): a byte, a pixel, a
binary grid and a digest. A Time (R4, decision D20: abstract ticks) is a Nat. -/

namespace Sys2Proof

/-- A byte: 8 bits, bit 7 the most significant (R6). -/
abbrev Byte := BitVec 8

/-- A pixel is one bit (R5, decision D4). -/
abbrev Pixel := Bool

/-- A binary grid: rows from the top, each a list of pixels from the left (R5). As presented it may be ragged
(R61). -/
abbrev Grid := List (List Pixel)

/-- A value of FP's result type (R131). DESIGN CHOICE (log 7): digests are byte lists, so that a digest such as
MD5 and the collision-free identity are both instances. -/
abbrev Digest := List Byte

end Sys2Proof
end

