-- ==== Sys2Proof/Config.lean ====
section
/-! DEFINITION. What an implementation fixes and what the spec leaves open: the open parameter FP, the free values,
and the defaults of omitted CFG options (R4 of 00_scope.md). A constant without a body is opaque: no proof can see
its value, so a statement about it holds for every value. -/

namespace Sys2Proof.Config

/-- FP, the fingerprint function (R131, decision D17, U5): total and deterministic, nothing else is assumed; in
particular not injective (R301). Log 7. -/
opaque fp : List Byte → Digest

/-- The content of pixel `(y, x)` of the register `P[r][c]` that BUILDPANELS creates as its `draw`-th draw: R32 and
R227 leave it unspecified (U1). Log 8. -/
opaque freePixel : (draw r c y x : Nat) → Pixel

/-- Segment `i` of digit `(dy, dx)` of the register `P[r][c]` that BUILDPANELS creates (R32, R227, U1). Log 8. -/
opaque freeSegment : (draw r c dy dx i : Nat) → Bool

/-- Which of several failing devices E_CFG_BAD_DESCRIPTOR records: R250 records "device index" and no rule says
which. Log 16. -/
opaque pickDevice : List Nat → Nat

/-- The ticks that pass before a DRAIN the sequencer takes by itself ("a small fixed delay", value not given: R302,
U16, decision D28). Log 18. -/
opaque drainDelay : Nat → Nat

/-- R4: ROT defaults to 0 degrees (decision D8). -/
def defaultRot : Nat := 0

/-- R4: MIR defaults to false (decision D8). -/
def defaultMir : Bool := false

/-- R4: INV defaults to false (decision D8). -/
def defaultInv : Bool := false

/-- R4: MAXQ defaults to 100 (decision D21). -/
def defaultMaxq : Nat := 100

end Sys2Proof.Config
end

