-- ==== Sys2Proof/Syntax.lean ====
section
/-! DEFINITION. The instructions: one constructor per row of spec/opcode_table.json, and the operand types of the
records of R92 to R94 (30_encoding.md). -/

namespace Sys2Proof

/-- The three panel variants (R4, R159). A and B are DotPanels, SEG is a SegmentPanel (R8, C5). -/
inductive PanelType where
  | a | b | seg
  deriving DecidableEq, Repr

/-- The PTYPE field as a CFG record presents it: one of the three variants or any other value (R100 (b)). -/
inductive PTypeField where
  | known (t : PanelType)
  | other
  deriving DecidableEq, Repr

/-- One entry of the CFG record's DEVICES (R92): the explicit address list, if any, and the validity bit of the
transport descriptor (decision D30). -/
structure DeviceEntry where
  addrs : Option (List Int)
  ok    : Bool
  deriving DecidableEq, Repr

/-- The CFG record (R92). The options with a default in R4 may be omitted (`none`); MINI, PTYPE, PW and PH must be
given (R4, decision D20; log 23). -/
structure CfgRecord where
  rot     : Option Nat
  mir     : Option Bool
  inv     : Option Bool
  ptype   : PTypeField
  pw      : Nat
  ph      : Nat
  mini    : Nat
  maxq    : Option Nat
  layout  : List (List Int)
  devices : List DeviceEntry
  deriving DecidableEq, Repr

/-- A frame (R93): a binary grid, an RGBA buffer, or anything that is neither. -/
inductive Frame where
  | grid (rows : Grid)
  | rgba (bytes : List Byte)
  | other
  deriving DecidableEq, Repr

/-- The 7-bit segment-state vector of one digit (R24); `s<i>` is segment `i`, placed as R160 draws it. -/
structure Segs where
  s0 : Bool
  s1 : Bool
  s2 : Bool
  s3 : Bool
  s4 : Bool
  s5 : Bool
  s6 : Bool
  deriving DecidableEq, Repr

/-- The `axis` operand of PACKBITS (R129): `columns` is axis 0 (one byte per column), `rows` axis 1 (one per row). -/
inductive Axis where
  | columns | rows
  deriving DecidableEq, Repr

/-- The `bitOrder` operand of PACKBITS (R129). -/
inductive BitOrder where
  | big | little
  deriving DecidableEq, Repr

/-- A typed field of an operation record (R91: "values (naturals, booleans, lists), not bit fields"). `omitted`
stands for an option left out (R4) or a `flush` left out (R93). -/
inductive Field where
  | omitted
  | nat (n : Nat)
  | flag (b : Bool)
  | ptype (p : PTypeField)
  | layout (rows : List (List Int))
  | devices (ds : List DeviceEntry)
  | frame (f : Frame)
  deriving DecidableEq, Repr

/-- What has an encoding (30_encoding.md): an operation record, the one-byte op code followed by typed fields
(R91), or the bytes of one wire frame (R95 to R97). -/
inductive Code where
  | record (op : Byte) (fields : List Field)
  | wire (bytes : List Byte)
  deriving DecidableEq, Repr

/-- The instructions, in the order of spec/opcode_table.json: 6 OP rows, 5 WIRE rows, 18 STEP rows, 24 FN rows. -/
inductive Instr where
  -- format OP (R91)
  | reset
  | cfg (rec : CfgRecord)
  | send (frame : Frame) (flush : Bool) (now : Nat)
  | devOpenDone (d : Nat) (err : Bool)
  | devWriteDone (d : Nat) (err : Bool)
  | drain (now : Nat)
  -- format WIRE (R95 to R97): the row's own fields
  | typeaFlush (addr : Byte) (data : List Byte)
  | typeaBuffer (addr : Byte) (data : List Byte)
  | typeb (addr : Byte) (data : List Byte)
  | segFlush (addr : Byte) (digits : List (BitVec 7))
  | segBuffer (addr : Byte) (digits : List (BitVec 7))
  -- format STEP
  | geom
  | validate (frame : Frame)
  | dedup (frame : Frame)
  | prep (frame : Frame)
  | slice (g : Grid) (r c th tw : Nat)
  | fanout (g : Grid) (flush : Bool)
  | record (fp : Digest) (now : Nat)
  | dotcore (frame : Frame) (flush : Bool) (now : Nat)
  | seggeom
  | segprep (frame : Frame)
  | segfp (subV subH : Frame)
  | segslice (gv gh : Grid) (r c : Nat)
  | segfanout (gv gh : Grid) (flush : Bool)
  | segcore (frame : Frame) (flush : Bool) (now : Nat)
  | checkcfg (rec : CfgRecord)
  | buildpanels
  | beginopen
  | enqueue (frame : Frame) (flush : Bool)
  -- format FN
  | rot90 (g : Grid)
  | rotate (g : Grid) (degrees : Int)
  | mirror (g : Grid)
  | invert (g : Grid)
  | orient (g : Grid)
  | lumabit (r g b : Byte)
  | rgba2bin (buf : List Byte) (w h : Nat)
  | resize (buf : List Byte) (w h w2 h2 : Nat)
  | resizeg (g : Grid) (w2 h2 : Nat)
  | packbits (g : Grid) (axis : Axis) (order : BitOrder)
  | bitrev8 (v : Byte)
  | fprint (frames : List Frame)
  | flat (frame : Frame)
  | contenteq (a b : Grid)
  | setcontent (r c : Nat) (g : Grid)
  | hexexpand (s : List Byte)
  | chksum (command : List Byte)
  | enca (r c : Nat) (flush : Bool)
  | encb (r c : Nat) (flush : Bool)
  | setvert (r c : Nat) (v : Grid)
  | sethoriz (r c : Nat) (h : Grid)
  | digitval (s : Segs)
  | encseg (r c : Nat) (flush : Bool)
  | encode (r c : Nat) (flush : Bool)
  deriving DecidableEq, Repr

/-- The table's `format` column. -/
inductive Format where
  | op | wire | step | fn
  deriving DecidableEq, Repr

end Sys2Proof
end

