-- ==== Sys2Proof/Machine/Domain.lean ====
section
/-! DEFINITION. The domains on which the spec defines its functions: what 40_frame_utilities.md calls the common
domain of all grid functions, and the domains R121, R127, R129, R131 and R184 state. A call outside them has no
meaning in the spec (logs 12, 13). -/

namespace Sys2Proof.Machine

/-- `rows(G)` (R5). -/
def rowsOf (g : Grid) : Nat := g.length

/-- `cols(G)` (R5): the length of the first row. -/
def colsOf (g : Grid) : Nat := (g.headD []).length

/-- The grid has exactly `h` rows of exactly `w` pixels (R64). -/
def hasSize (g : Grid) (h w : Nat) : Bool := g.length == h && g.all (fun row => row.length == w)

/-- The common domain of all grid functions: `H >= 1`, `W >= 1` and all rows of length `W` (40_frame_utilities.md,
its opening). -/
def gridOk (g : Grid) : Bool := 1 ≤ rowsOf g && 1 ≤ colsOf g && hasSize g (rowsOf g) (colsOf g)

/-- An RGBA buffer of width `w` and height `h`, both at least 1 (R126, R127). -/
def rgbaOk (buf : List Byte) (w h : Nat) : Bool := 1 ≤ w && 1 ≤ h && buf.length == 4 * w * h

/-- ROTATE "is defined only when `degrees mod 90 = 0`" (R121, decision D8, U2). -/
def angleOk (degrees : Int) : Bool := degrees % 90 == 0

/-- The `range` of PACKBITS: the rows for axis 0, the columns for axis 1 (R129). -/
def packRange (g : Grid) (axis : Axis) : Nat :=
  match axis with
  | .columns => rowsOf g
  | .rows => colsOf g

/-- PACKBITS' "Domain: `range <= 8`" (R129, decision D9, U4). -/
def packOk (g : Grid) (axis : Axis) : Bool := packRange g axis ≤ 8

/-- A frame FLAT is defined on: a grid or an RGBA buffer (R131, R132), the grid in the common domain. -/
def frameOk (f : Frame) : Bool :=
  match f with
  | .grid g => gridOk g
  | .rgba _ => true
  | .other => false

/-- The rectangle SLICE reads lies in the grid (R184: "every index is in range"). -/
def sliceOk (g : Grid) (r c th tw : Nat) : Bool :=
  gridOk g && 1 ≤ th && 1 ≤ tw && (r + 1) * th ≤ rowsOf g && (c + 1) * tw ≤ colsOf g

end Sys2Proof.Machine
end

