-- ==== Sys2Proof/WellFormed.lean ====
section
/-! DEFINITION. Well-formed instructions: the checks that depend on the operands alone. The records of CFG, SEND and
the events have none (R92: LAYOUT "may be empty or ragged as presented; CFG checks it"; R93: a frame may be of any
kind and shape). -/

namespace Sys2Proof

open Sys2Proof.Machine

/-- The instruction's operands lie in the domain its rule states. A wire frame carries at least one data byte,
because PW and PH are at least 1 (R21, R95 to R97). -/
def wf (i : Instr) : Bool :=
  match i with
  | .reset => true
  | .cfg _ => true
  | .send _ _ _ => true
  | .devOpenDone _ _ => true
  | .devWriteDone _ _ => true
  | .drain _ => true
  | .typeaFlush _ data => !data.isEmpty
  | .typeaBuffer _ data => !data.isEmpty
  | .typeb _ data => !data.isEmpty
  | .segFlush _ digits => !digits.isEmpty
  | .segBuffer _ digits => !digits.isEmpty
  | .geom => true
  | .validate _ => true
  | .dedup f => frameOk f
  | .prep f => frameOk f
  | .slice g r c th tw => sliceOk g r c th tw
  | .fanout g _ => gridOk g
  | .record _ _ => true
  | .dotcore _ _ _ => true
  | .seggeom => true
  | .segprep f => frameOk f
  | .segfp v h => frameOk v && frameOk h
  | .segslice gv gh _ _ => gridOk gv && gridOk gh
  | .segfanout gv gh _ => gridOk gv && gridOk gh
  | .segcore _ _ _ => true
  | .checkcfg _ => true
  | .buildpanels => true
  | .beginopen => true
  | .enqueue _ _ => true
  | .rot90 g => gridOk g
  | .rotate g degrees => gridOk g && angleOk degrees
  | .mirror g => gridOk g
  | .invert g => gridOk g
  | .orient g => gridOk g
  | .lumabit _ _ _ => true
  | .rgba2bin buf w h => rgbaOk buf w h
  | .resize buf w h w2 h2 => rgbaOk buf w h && 1 ≤ w2 && 1 ≤ h2
  | .resizeg g w2 h2 => gridOk g && 1 ≤ w2 && 1 ≤ h2
  | .packbits g axis _ => gridOk g && packOk g axis
  | .bitrev8 _ => true
  | .fprint fs => !fs.isEmpty && fs.all frameOk
  | .flat f => frameOk f
  | .contenteq a b => gridOk a && gridOk b
  | .setcontent _ _ _ => true
  | .hexexpand _ => true
  | .chksum _ => true
  | .enca _ _ _ => true
  | .encb _ _ _ => true
  | .setvert _ _ v => gridOk v
  | .sethoriz _ _ h => gridOk h
  | .digitval _ => true
  | .encseg _ _ _ => true
  | .encode _ _ _ => true

end Sys2Proof
end

