-- ==== Sys2Proof/Decode.lean ====
section
/-! DEFINITION. The decoder of operation records (R91 to R94) and of wire frames (R95 to R98), total, rejecting by
name; after it the encoder, written from the same tables of 30_encoding.md. -/

namespace Sys2Proof

open Sys2Proof.Machine

/-! ## The bytes of a wire frame (R95 to R98) -/

/-- The start byte of a Type A and a Segmented frame (R95, R97). -/
def startA : Byte := 0x80

/-- The end byte of a Type A and a Segmented frame (R95, R97). -/
def endA : Byte := 0x8F

/-- The start byte of a Type B frame (R96). -/
def startB : Byte := 0x02

/-- The end byte of a Type B frame (R96). -/
def endB : Byte := 0x03

/-- The flushByte (R95, R98 (b)): `0x83` when flushing, `0x84` when buffering. -/
def flushByte (flush : Bool) : Byte := if flush then 0x83 else 0x84

/-- HEXDIGIT (R98 (e), R151): the ASCII code of a lowercase hexadecimal digit. -/
def hexDigit (n : Nat) : Byte := if n ≤ 9 then BitVec.ofNat 8 (0x30 + n) else BitVec.ofNat 8 (0x57 + n)

/-- A byte's two characters, the high digit first (R63 (c), R151). -/
def hexPair (v : Byte) : List Byte := [hexDigit (v.toNat / 16), hexDigit (v.toNat % 16)]

/-- HEXEXPAND (R151): bytes to ASCII hexadecimal characters. -/
def hexExpand (s : List Byte) : List Byte := s.flatMap hexPair

/-- The arithmetic sum of a byte sequence (R152). -/
def byteSum (s : List Byte) : Nat := (s.map BitVec.toNat).sum

/-- CHKSUM (R152): `sum = Σ command & 0xFF`, then `(sum XOR 0xFF) + 3`, its low 8 bits (CHK_WIDE, decision D11,
log 22). -/
def chkSum (command : List Byte) : Byte := BitVec.ofNat 8 (((byteSum command % 256) ^^^ 0xFF) + 3)

/-- The Type A frame (R95): start, flushByte, address, data, end. The Segmented frame is the same with digit values
as data (R97). -/
def typeAFrame (flush : Bool) (addr : Byte) (data : List Byte) : List Byte :=
  [startA, flushByte flush, addr] ++ data ++ [endA]

/-- The `command` of a Type B frame (R154): the characters of address, length (low 8 bits) and data. -/
def typeBCommand (addr : Byte) (data : List Byte) : List Byte :=
  hexExpand ([addr, BitVec.ofNat 8 data.length] ++ data)

/-- The Type B frame (R96, R154). -/
def typeBFrame (addr : Byte) (data : List Byte) : List Byte :=
  [startB] ++ typeBCommand addr data ++ [endB] ++ hexExpand [chkSum (typeBCommand addr data)]

/-- A digit value as the byte it is sent as: bit 7 is 0 (R97). -/
def digitByte (v : BitVec 7) : Byte := v.setWidth 8

/-! ## The decoder -/

/-- Why a code is not an instruction's. -/
inductive DecodeError where
  /-- R100 (a): an op code outside R91's table. -/
  | illegalOp (op : Byte)
  /-- A legal op code whose typed fields are not those of R92 to R94 (log 27). -/
  | badRecord (op : Byte)
  /-- A wire frame without a byte. -/
  | emptyFrame
  /-- The first byte is neither `0x80` nor `0x02` (R102). -/
  | badStart (b : Byte)
  /-- R100 (d): the second byte of a Type A frame is neither `0x83` nor `0x84`. -/
  | badFlushByte (b : Byte)
  /-- The frame stops before its end byte or its checksum. -/
  | truncated
  /-- The end byte is not the fixed one (R95 to R97). -/
  | badEnd (b : Byte)
  /-- The frame has no data byte (PW, PH are at least 1, R21). -/
  | noData
  /-- R97: bit 7 of a digit is not 0. -/
  | digitBit7
  /-- A character is no lowercase hexadecimal digit, or a pair is incomplete (R98 (e)). -/
  | badHex
  /-- The length field is not the number of data bytes modulo 256 (R98 (d)). -/
  | badLength
  /-- The checksum characters are not those R152 gives. -/
  | badChecksum
  deriving DecidableEq, Repr

/-- The last element of a list and those before it. -/
def splitEnd {α : Type} : List α → Option (List α × α)
  | [] => none
  | x :: xs =>
    match splitEnd xs with
    | none => some ([], x)
    | some (ys, e) => some (x :: ys, e)

/-- The digit an ASCII character stands for (R98 (e)), lowercase only. -/
def unhexDigit (ch : Byte) : Option Nat :=
  if 0x30 ≤ ch.toNat ∧ ch.toNat ≤ 0x39 then some (ch.toNat - 0x30)
  else if 0x61 ≤ ch.toNat ∧ ch.toNat ≤ 0x66 then some (ch.toNat - 0x57)
  else none

/-- The bytes a character sequence expands (the inverse of R151). -/
def unhex : List Byte → Option (List Byte)
  | [] => some []
  | [_] => none
  | h :: l :: rest =>
    match unhexDigit h, unhexDigit l, unhex rest with
    | some a, some b, some bs => some (BitVec.ofNat 8 (16 * a + b) :: bs)
    | _, _, _ => none

/-- A frame that begins with `0x80`: Type A, or Segmented when PTYPE = SEG; the two are told apart only by the
configuration (R102). -/
def decodeTypeA (pt : PanelType) (bytes : List Byte) : Except DecodeError Instr :=
  match bytes with
  | fb :: addr :: rest =>
    if fb ≠ flushByte true ∧ fb ≠ flushByte false then .error (.badFlushByte fb)
    else
      match splitEnd rest with
      | none => .error .truncated
      | some (data, e) =>
        if e ≠ endA then .error (.badEnd e)
        else if data.isEmpty then .error .noData
        else if pt = .seg then
          if data.all (fun b => b.toNat < 128) then
            let digits := data.map (BitVec.setWidth 7)
            .ok (if fb = flushByte true then .segFlush addr digits else .segBuffer addr digits)
          else .error .digitBit7
        else .ok (if fb = flushByte true then .typeaFlush addr data else .typeaBuffer addr data)
  | _ => .error .truncated

/-- A frame that begins with `0x02`: Type B (R96). -/
def decodeTypeB (bytes : List Byte) : Except DecodeError Instr :=
  match splitEnd bytes with
  | none => .error .truncated
  | some (bytes1, lo) =>
    match splitEnd bytes1 with
    | none => .error .truncated
    | some (bytes2, hi) =>
      match splitEnd bytes2 with
      | none => .error .truncated
      | some (command, e) =>
        if e ≠ endB then .error (.badEnd e)
        else
          match unhex command with
          | some (addr :: len :: data) =>
            if len ≠ BitVec.ofNat 8 data.length then .error .badLength
            else if data.isEmpty then .error .noData
            else if [hi, lo] ≠ hexExpand [chkSum command] then .error .badChecksum
            else .ok (.typeb addr data)
          | some _ => .error .truncated
          | none => .error .badHex

/-- The decoder of emitted bytes (R102), for a Display whose panels are of type `pt`. -/
def decodeWire (pt : PanelType) (bytes : List Byte) : Except DecodeError Instr :=
  match bytes with
  | [] => .error .emptyFrame
  | b :: rest =>
    if b = startA then decodeTypeA pt rest
    else if b = startB then decodeTypeB rest
    else .error (.badStart b)

/-- A field that may be left out: `some none` when it is. -/
def optNat (f : Field) : Option (Option Nat) :=
  match f with
  | .omitted => some none
  | .nat n => some (some n)
  | _ => none

/-- A flag that may be left out: `some none` when it is. -/
def optFlag (f : Field) : Option (Option Bool) :=
  match f with
  | .omitted => some none
  | .flag b => some (some b)
  | _ => none

/-- The CFG record's ten fields, in R92's order. -/
def decodeCfg (fs : List Field) : Option Instr :=
  match fs with
  | [rot, mir, inv, .ptype pt, .nat pw, .nat ph, .nat mini, maxq, .layout rows, .devices ds] =>
    match optNat rot, optFlag mir, optFlag inv, optNat maxq with
    | some rot, some mir, some inv, some maxq => some (.cfg ⟨rot, mir, inv, pt, pw, ph, mini, maxq, rows, ds⟩)
    | _, _, _, _ => none
  | _ => none

/-- The SEND record's three fields (R93); a `flush` left out is `true`. -/
def decodeSend (fs : List Field) : Option Instr :=
  match fs with
  | [.frame f, flush, .nat now] =>
    match optFlag flush with
    | some flush => some (.send f (flush.getD true) now)
    | none => none
  | _ => none

/-- The decoder of operation records (R91): the op code byte selects the operation, the typed fields are R92's to
R94's. -/
def decodeRecord (op : Byte) (fs : List Field) : Except DecodeError Instr :=
  let found (o : Option Instr) : Except DecodeError Instr :=
    match o with
    | some i => .ok i
    | none => .error (.badRecord op)
  if op = 0x00 then found (match fs with | [] => some .reset | _ => none)
  else if op = 0x01 then found (decodeCfg fs)
  else if op = 0x02 then found (decodeSend fs)
  else if op = 0x10 then found (match fs with | [.nat d, .flag err] => some (.devOpenDone d err) | _ => none)
  else if op = 0x11 then found (match fs with | [.nat d, .flag err] => some (.devWriteDone d err) | _ => none)
  else if op = 0x20 then found (match fs with | [.nat now] => some (.drain now) | _ => none)
  else .error (.illegalOp op)

/-- The decoder, for a Display whose panels are of type `pt` (only a wire frame's meaning depends on it). -/
def decode (pt : PanelType) (c : Code) : Except DecodeError Instr :=
  match c with
  | .record op fs => decodeRecord op fs
  | .wire bytes => decodeWire pt bytes

/-! ## The encoder -/

/-- The field of an option that may be left out. -/
def natField (o : Option Nat) : Field :=
  match o with
  | none => .omitted
  | some n => .nat n

/-- The field of a flag that may be left out. -/
def flagField (o : Option Bool) : Field :=
  match o with
  | none => .omitted
  | some b => .flag b

/-- The CFG record's fields, in R92's order. -/
def encodeCfg (r : CfgRecord) : List Field :=
  [natField r.rot, flagField r.mir, flagField r.inv, .ptype r.ptype, .nat r.pw, .nat r.ph, .nat r.mini, natField r.maxq,
    .layout r.layout, .devices r.devices]

/-- The code of an instruction: the record of an OP row (R91 to R94), the bytes of a WIRE row (R95 to R97). STEP and
FN rows "have no encoding at all" (30_encoding.md, its opening). -/
def encode (i : Instr) : Option Code :=
  match i with
  | .reset => some (.record 0x00 [])
  | .cfg r => some (.record 0x01 (encodeCfg r))
  | .send f flush now => some (.record 0x02 [.frame f, .flag flush, .nat now])
  | .devOpenDone d err => some (.record 0x10 [.nat d, .flag err])
  | .devWriteDone d err => some (.record 0x11 [.nat d, .flag err])
  | .drain now => some (.record 0x20 [.nat now])
  | .typeaFlush addr data => some (.wire (typeAFrame true addr data))
  | .typeaBuffer addr data => some (.wire (typeAFrame false addr data))
  | .typeb addr data => some (.wire (typeBFrame addr data))
  | .segFlush addr digits => some (.wire (typeAFrame true addr (digits.map digitByte)))
  | .segBuffer addr digits => some (.wire (typeAFrame false addr (digits.map digitByte)))
  | .geom => none
  | .validate _ => none
  | .dedup _ => none
  | .prep _ => none
  | .slice _ _ _ _ _ => none
  | .fanout _ _ => none
  | .record _ _ => none
  | .dotcore _ _ _ => none
  | .seggeom => none
  | .segprep _ => none
  | .segfp _ _ => none
  | .segslice _ _ _ _ => none
  | .segfanout _ _ _ => none
  | .segcore _ _ _ => none
  | .checkcfg _ => none
  | .buildpanels => none
  | .beginopen => none
  | .enqueue _ _ => none
  | .rot90 _ => none
  | .rotate _ _ => none
  | .mirror _ => none
  | .invert _ => none
  | .orient _ => none
  | .lumabit _ _ _ => none
  | .rgba2bin _ _ _ => none
  | .resize _ _ _ _ _ => none
  | .resizeg _ _ _ => none
  | .packbits _ _ _ => none
  | .bitrev8 _ => none
  | .fprint _ => none
  | .flat _ => none
  | .contenteq _ _ => none
  | .setcontent _ _ _ => none
  | .hexexpand _ => none
  | .chksum _ => none
  | .enca _ _ _ => none
  | .encb _ _ _ => none
  | .setvert _ _ _ => none
  | .sethoriz _ _ _ => none
  | .digitval _ => none
  | .encseg _ _ _ => none
  | .encode _ _ _ => none

/-- The table's `format` of an instruction. -/
def formatOf (i : Instr) : Format :=
  match i with
  | .reset => .op
  | .cfg _ => .op
  | .send _ _ _ => .op
  | .devOpenDone _ _ => .op
  | .devWriteDone _ _ => .op
  | .drain _ => .op
  | .typeaFlush _ _ => .wire
  | .typeaBuffer _ _ => .wire
  | .typeb _ _ => .wire
  | .segFlush _ _ => .wire
  | .segBuffer _ _ => .wire
  | .geom => .step
  | .validate _ => .step
  | .dedup _ => .step
  | .prep _ => .step
  | .slice _ _ _ _ _ => .step
  | .fanout _ _ => .step
  | .record _ _ => .step
  | .dotcore _ _ _ => .step
  | .seggeom => .step
  | .segprep _ => .step
  | .segfp _ _ => .step
  | .segslice _ _ _ _ => .step
  | .segfanout _ _ _ => .step
  | .segcore _ _ _ => .step
  | .checkcfg _ => .step
  | .buildpanels => .step
  | .beginopen => .step
  | .enqueue _ _ => .step
  | .rot90 _ => .fn
  | .rotate _ _ => .fn
  | .mirror _ => .fn
  | .invert _ => .fn
  | .orient _ => .fn
  | .lumabit _ _ _ => .fn
  | .rgba2bin _ _ _ => .fn
  | .resize _ _ _ _ _ => .fn
  | .resizeg _ _ _ => .fn
  | .packbits _ _ _ => .fn
  | .bitrev8 _ => .fn
  | .fprint _ => .fn
  | .flat _ => .fn
  | .contenteq _ _ => .fn
  | .setcontent _ _ _ => .fn
  | .hexexpand _ => .fn
  | .chksum _ => .fn
  | .enca _ _ _ => .fn
  | .encb _ _ _ => .fn
  | .setvert _ _ _ => .fn
  | .sethoriz _ _ _ => .fn
  | .digitval _ => .fn
  | .encseg _ _ _ => .fn
  | .encode _ _ _ => .fn

/-- The panel type that tells a wire frame's family apart (R102): a Segmented frame needs PTYPE = SEG, a Type A frame
a PTYPE other than SEG; nothing else depends on it. -/
def familyAgrees (pt : PanelType) (i : Instr) : Bool :=
  match i with
  | .typeaFlush _ _ => pt != .seg
  | .typeaBuffer _ _ => pt != .seg
  | .segFlush _ _ => pt == .seg
  | .segBuffer _ _ => pt == .seg
  | _ => true

/-! ## One table row as a code, for the host's questions about rows (log 4) -/

/-- The record of an op code with every typed field at the zero of its type. -/
def zeroRecord (op : Byte) : Code :=
  if op = 0x01 then
    .record op [.nat 0, .flag false, .flag false, .ptype (.known .a), .nat 0, .nat 0, .nat 0, .nat 0, .layout [],
      .devices []]
  else if op = 0x02 then .record op [.frame (.grid []), .flag false, .nat 0]
  else if op = 0x10 ∨ op = 0x11 then .record op [.nat 0, .flag false]
  else if op = 0x20 then .record op [.nat 0]
  else .record op []

/-- The smallest frame a WIRE row describes (one data byte) with address and data at zero, its first two bytes
`b0`, `b1` as given; for Type B a zero `b1` stands for the address' high digit at zero, the character `'0'`. -/
def rowFrame (b0 b1 : Byte) : List Byte :=
  if b0 = startB then
    let rest := (typeBFrame 0 [0]).drop 2
    [b0, if b1 = 0 then hexDigit 0 else b1] ++ rest
  else [b0, b1, 0, 0, endA]

/-- The code of a table row whose bits are `w`: 8 bits are an op code; 16 bits are a frame's first two bytes, "byte 0
in bits 15..8" (the table's `match_on`). -/
def tableCode (nbits w : Nat) : Option Code :=
  if nbits = 8 then some (zeroRecord (BitVec.ofNat 8 w))
  else if nbits = 16 then some (.wire (rowFrame (BitVec.ofNat 8 (w / 256)) (BitVec.ofNat 8 w)))
  else none

/-- The instruction the decoder reads from a table row's bits, with every operand at zero. The two SEG rows have the
words of the two Type A rows (R102); read here with PTYPE = A, the reset value (log 9). -/
def decodeTableWord (nbits w : Nat) : Option Instr :=
  match tableCode nbits w with
  | none => none
  | some c =>
    match decode .a c with
    | .ok i => some i
    | .error _ => none

end Sys2Proof
end

