-- ==== Sys2Proof/Machine/State.lean ====
section
/-! DEFINITION. The state of the FDE (10_state.md), its errors and warnings (60_exceptions.md), the reasons a run
stops, and the state after reset (R32). -/

namespace Sys2Proof.Machine

/-! ## Errors, statuses and warnings (R250) -/

/-- The errors of R250, each with the value it records. Taken by `raise`; every one is a next state (safe: the
spec's own outcome). -/
inductive Err where
  /-- Code 1, CFG check 1. -/
  | cfgEmptyLayout
  /-- Code 2, CFG check 2. -/
  | cfgRaggedLayout
  /-- Code 3, CFG check 3. -/
  | cfgEmptyDevices
  /-- Code 4, CFG checks 4 and 5; records a device index. -/
  | cfgBadDescriptor (d : Nat)
  /-- Code 5, CFG check 6. -/
  | cfgBadOption
  /-- Code 16, VALIDATE. -/
  | valShape
  /-- Code 17, VALIDATE. -/
  | valKind
  /-- Code 64, SEND while CFGD = 0. -/
  | notConfigured
  /-- Code 65, an op code outside R91; records the op code. -/
  | illegalOp (op : Byte)
  /-- Code 66, CFG while CFGD = 1. -/
  | alreadyConfigured
  deriving DecidableEq, Repr

/-- The statuses of the RESULT port (decision D32). -/
inductive Status where
  | ok | queued | dropped | duplicate | dispatched
  deriving DecidableEq, Repr

/-- A word on the RESULT port: the status or the error of a host command (R258, D1). -/
inductive Result where
  | status (st : Status)
  | error (e : Err)
  deriving DecidableEq, Repr

/-- The warnings of R250, each with the value it records. -/
inductive Warning where
  /-- Code 32, DEV_OPEN_DONE with err; the device index. -/
  | transportOpen (d : Nat)
  /-- Code 33, DEV_WRITE_DONE with err; the device index. -/
  | transportWrite (d : Nat)
  /-- Code 34, reserved, never emitted (R234). -/
  | transportClose (d : Nat)
  /-- Code 48, the first drop only. -/
  | queueFull
  /-- Code 49, the first violation only; the interval `now - LAST_TS`. -/
  | rate (interval : Nat)
  /-- Code 50, DRAIN when the core raises; the validation error. -/
  | drainValidation (e : Err)
  deriving DecidableEq, Repr

/-! ## Registers -/

/-- ROT's four values (R21). -/
inductive Rotation where
  | r0 | r90 | r180 | r270
  deriving DecidableEq, Repr

/-- DEVADDR[d] (R21): ALL, or a finite set of addresses as a strictly rising list (log 21). -/
inductive DevAddr where
  | all
  | only (addrs : List Int)
  deriving DecidableEq, Repr

/-- The configuration record, fields 0 to 12 of R21. -/
structure CfgRegs where
  rot     : Rotation
  mir     : Bool
  inv     : Bool
  ptype   : PanelType
  pw      : Nat
  ph      : Nat
  mini    : Nat
  maxq    : Nat
  rows    : Nat
  cols    : Nat
  layout  : List (List Byte)
  ndev    : Nat
  devAddr : List DevAddr
  deriving DecidableEq, Repr

/-- A panel register (R23, R24): a binary grid for PTYPE A and B, one segment vector per digit for PTYPE SEG. -/
inductive Panel where
  | dot (content : Grid)
  | seg (digits : List (List Segs))
  deriving DecidableEq, Repr

/-- CONN (R27). -/
inductive Conn where
  | disconnected | connecting | connected
  deriving DecidableEq, Repr

/-- An entry of the pending-send queue (R30): a copy of the frame, and the flush flag. -/
structure QEntry where
  frame : Frame
  flush : Bool
  deriving DecidableEq, Repr

/-- One `emit Write(d, bytes)` (R31, R65). -/
structure Write where
  dev   : Nat
  bytes : List Byte
  deriving DecidableEq, Repr

/-! ## What a sub-step returns -/

/-- The geometry registers (R22, R180). -/
structure Geom where
  panelW : Nat
  panelH : Nat
  devW   : Nat
  devH   : Nat
  width  : Nat
  height : Nat
  deriving DecidableEq, Repr

/-- The aggregate sub-frame sizes of a SegmentDisplay (R210), in device and in effective orientation. -/
structure SegGeom where
  vw  : Nat
  vh  : Nat
  hw  : Nat
  hh  : Nat
  vwe : Nat
  vhe : Nat
  hwe : Nat
  hhe : Nat
  deriving DecidableEq, Repr

/-- SEGPREP's result (R211): the two resized sub-frames and the two oriented grids. -/
structure SubFrames where
  subV : Frame
  subH : Frame
  gv   : Grid
  gh   : Grid
  deriving DecidableEq, Repr

/-- What a STEP, FN or WIRE row returns to the rule that invoked it (log 5). -/
inductive Value where
  | nothing
  | bit (b : Bool)
  | number (n : Nat)
  | byte (b : Byte)
  | bytes (bs : List Byte)
  | grid (g : Grid)
  | grids (v h : Grid)
  | digest (d : Digest)
  | dedup (d : Digest) (duplicate : Bool)
  | geom (g : Geom)
  | segGeom (g : SegGeom)
  | subFrames (f : SubFrames)
  | regs (c : CfgRegs)
  | status (st : Status)
  deriving DecidableEq, Repr

/-! ## The state -/

/-- The state: the tuple of R20 with the trace of R31, the RESULT port, and the model's own fields. -/
structure State where
  /-- CFGD (R20). -/
  cfgd       : Bool
  /-- The configuration record (R21). -/
  cfg        : CfgRegs
  /-- P[r][c] (R23, R24): the rows of the layout, each from the left. -/
  panels     : List (List Panel)
  /-- CONN (R27). -/
  conn       : Conn
  /-- DEV_DONE[d] (R28). -/
  devDone    : List Bool
  /-- DEV_OPEN[d] (R28). -/
  devOpen    : List Bool
  /-- Q, oldest first (R30). -/
  q          : List QEntry
  /-- LAST_FP (R29). -/
  lastFp     : Option Digest
  /-- LAST_TS (R29). -/
  lastTs     : Option Nat
  /-- OVF_WARNED (R26). -/
  ovfWarned  : Bool
  /-- RATE_WARNED (R26). -/
  rateWarned : Bool
  /-- OUT (R31), the Write requests of all devices in issue order (log 20). -/
  out        : List Write
  /-- OPENREQ (R31). -/
  openReq    : List Nat
  /-- WARNLOG, oldest first (R31). -/
  warnLog    : List Warning
  /-- The latest word on the RESULT port (R258, D32; log 6). -/
  result     : Option Result
  /-- The model's own: what the last STEP, FN or WIRE row returned (log 5). -/
  value      : Value
  /-- The model's own: the operations still to be presented, next first (R33, R236; log 1). -/
  schedule   : List Code
  /-- The model's own: the largest `now` the TIME port has carried (R263; log 18). -/
  time       : Nat
  /-- The model's own: how many free values have been drawn (logs 8, 18). -/
  freeCtr    : Nat
  deriving DecidableEq, Repr

/-! ## The reasons a run stops -/

/-- A STEP or FN row reached state that the spec says is not there. No operation of the schedule raises one from
reset. -/
inductive Fault where
  /-- Raised by the STEP and FN rows that read a configuration register while CFGD = 0: "unreadable while CFGD = 0"
  (R32), "defined only while CFGD = 1" (R22). Safe: the spec gives no value to read. -/
  | unconfigured
  /-- Raised by the FN rows that name a panel register outside the layout: there is one for each layout cell and no
  other (R23). Safe: the spec gives no such register. -/
  | noSuchPanel
  deriving DecidableEq, Repr

/-- A call the spec gives no behaviour. -/
inductive Refusal where
  /-- Raised by exec's arm of an instruction without a meaning. Safe. No arm of this model does. -/
  | notModelled (mnemonic : String)
  /-- Raised by FN and STEP rows whose grid, buffer or frame lies outside the common domain of
  40_frame_utilities.md or the domain of their own rule (log 12). Safe: the spec defines no result. -/
  | outsideDomain
  /-- Raised by ROTATE for a number of degrees that is no multiple of 90 (R121: "refused"). Safe. -/
  | rotationAngle
  /-- Raised by PACKBITS for a group longer than 8, and by the encoders that pack such a register (R129:
  "refused"). Safe. -/
  | packRange
  /-- Raised by the rows whose operand is a register of the other panel variant (R150, R153 to R156, R158, R188,
  R215; log 14). Safe. -/
  | wrongPanelType
  /-- Raised by PREP and SEGPREP for a frame that VALIDATE rejects (R183, R211: "the validated `frame`"; log 15).
  Safe. -/
  | frameNotValidated
  /-- Raised by FANOUT and SEGFANOUT for a grid of another size than the device's (R184, R213; log 15). Safe. -/
  | gridSize
  /-- Raised by the step for a code that no instruction has and that is not an illegal op code: typed fields other
  than R92 to R94's, or a malformed wire frame (log 27). Safe. -/
  | malformedCode (e : DecodeError)
  deriving DecidableEq, Repr

/-! ## Reset -/

/-- The configuration registers while CFGD = 0. DESIGN CHOICE (log 9): R32 leaves them unspecified. -/
def resetCfg : CfgRegs :=
  { rot := .r0, mir := false, inv := false, ptype := .a, pw := 0, ph := 0, mini := 0, maxq := 0, rows := 0, cols := 0,
    layout := [], ndev := 0, devAddr := [] }

/-- The state after RESET (R32, R290). -/
def State.reset : State :=
  { cfgd := false, cfg := resetCfg, panels := [], conn := .disconnected, devDone := [], devOpen := [], q := [],
    lastFp := none, lastTs := none, ovfWarned := false, rateWarned := false, out := [], openReq := [], warnLog := [],
    result := none, value := .nothing, schedule := [], time := 0, freeCtr := 0 }

end Sys2Proof.Machine
end

