-- ==== Sys2Proof/Machine/Operands.lean ====
section
/-! DEFINITION. Operand reads: pixels and RGBA bytes (R61, R62), the derived geometry registers (R180, R210), panel
registers (R23), the layout and the devices' address sets (R66, R67). -/

namespace Sys2Proof.Machine

/-! ## Frame memory (R61, R62) -/

/-- The grid of `h` rows and `w` columns whose pixel `[y][x]` is `f y x`: the shape of every pseudocode of
40_frame_utilities.md. -/
def tabulate {α : Type} (h w : Nat) (f : Nat → Nat → α) : List (List α) :=
  (List.range h).map fun y => (List.range w).map fun x => f y x

/-- `G[y][x]` (R5, R61). -/
def pixel (g : Grid) (y x : Nat) : Pixel := (g.getD y []).getD x false

/-- A pixel as the number it is, 0 or 1 (R5). -/
def bitNat (p : Pixel) : Nat := if p then 1 else 0

/-- A pixel as the byte FLAT writes, `0x00` or `0x01` (R132). -/
def pixelByte (p : Pixel) : Byte := if p then 1 else 0

/-- `MemRead(off, 1)` of an RGBA buffer (R62). -/
def memRead (buf : List Byte) (off : Nat) : Byte := buf.getD off 0

/-- The offset of component `k` of the pixel in row `y`, column `x` of a buffer `w` wide (R62, decision D5): `k` = 0
red, 1 green, 2 blue, 3 alpha. -/
def rgbaOffset (w y x k : Nat) : Nat := 4 * (y * w + x) + k

/-! ## Geometry (R180, R210) -/

/-- ROT in degrees (R21). -/
def rotDegrees (r : Rotation) : Nat :=
  match r with
  | .r0 => 0
  | .r90 => 90
  | .r180 => 180
  | .r270 => 270

/-- `ROT in {90, 270}`: width and height swap (R180). -/
def swapsAxes (r : Rotation) : Bool :=
  match r with
  | .r0 => false
  | .r90 => true
  | .r180 => false
  | .r270 => true

/-- GEOM (R180): the six geometry registers. -/
def geomOf (c : CfgRegs) : Geom :=
  let panelW := if c.ptype = .seg then 2 * c.pw else c.pw
  let panelH := if c.ptype = .seg then 3 * c.ph else c.ph
  let devW := panelW * c.cols
  let devH := panelH * c.rows
  { panelW, panelH, devW, devH,
    width := if swapsAxes c.rot then devH else devW, height := if swapsAxes c.rot then devW else devH }

/-- SEGGEOM (R210): the aggregate sub-frame sizes. -/
def segGeomOf (c : CfgRegs) : SegGeom :=
  let vw := 2 * c.pw * c.cols
  let vh := 2 * c.ph * c.rows
  let hw := c.pw * c.cols
  let hh := 3 * c.ph * c.rows
  { vw, vh, hw, hh,
    vwe := if swapsAxes c.rot then vh else vw, vhe := if swapsAxes c.rot then vw else vh,
    hwe := if swapsAxes c.rot then hh else hw, hhe := if swapsAxes c.rot then hw else hh }

/-! ## Panel registers (R23, R24) -/

/-- The register `P[r][c]`, if the layout has that cell. -/
def getPanel (s : State) (r c : Nat) : Option Panel :=
  match s.panels[r]? with
  | some row => row[c]?
  | none => none

/-- The segment vector with every segment off; read only where a register has no such digit. -/
def noSegs : Segs := ⟨false, false, false, false, false, false, false⟩

/-- `p.seg[dy][dx]` (R24). -/
def digitAt (digits : List (List Segs)) (dy dx : Nat) : Segs := (digits.getD dy []).getD dx noSegs

/-! ## Layout and devices (R25, R67) -/

/-- `P[r][c].addr = LAYOUT[r][c]` (R23). -/
def addrAt (c : CfgRegs) (r col : Nat) : Byte := (c.layout.getD r []).getD col 0

/-- The layout cells in row-major order (R25). -/
def cells (c : CfgRegs) : List (Nat × Nat) :=
  (List.range c.rows).flatMap fun r => (List.range c.cols).map fun col => (r, col)

/-- `DEVADDR[d] = ALL or a in DEVADDR[d]` (R67, R185). -/
def serves (da : DevAddr) (a : Byte) : Bool :=
  match da with
  | .all => true
  | .only addrs => addrs.contains (Int.ofNat a.toNat)

/-- DEVADDR[d] (R21). -/
def devAddrAt (c : CfgRegs) (d : Nat) : DevAddr := c.devAddr.getD d (.only [])

/-- `OUT[d]` (R31): the byte sequences handed to device `d`, oldest first. -/
def outOf (s : State) (d : Nat) : List (List Byte) := (s.out.filter fun w => w.dev == d).map Write.bytes

end Sys2Proof.Machine
end

