-- ==== Sys2Proof/Machine/Datapath.lean ====
section
/-! DEFINITION. The datapath functions of 40_frame_utilities.md (R120 to R133), each a function of its operands. -/

namespace Sys2Proof.Machine

/-! ## Geometry transform -/

/-- ROT90 (R120): `R[i][j] = G[H-1-j][i]`. -/
def rot90 (g : Grid) : Grid := tabulate (colsOf g) (rowsOf g) fun i j => pixel g (rowsOf g - 1 - j) i

/-- `repeat n times: R = ROT90(R)` (R121). -/
def quarterTurns (n : Nat) (g : Grid) : Grid :=
  match n with
  | 0 => g
  | n + 1 => rot90 (quarterTurns n g)

/-- ROTATE (R121): `n = (degrees mod 360) / 90` with the non-negative remainder (decision D8). -/
def rotate (g : Grid) (degrees : Int) : Grid := quarterTurns ((degrees % 360).toNat / 90) g

/-- MIRROR (R122): `R[y][x] = G[y][W-1-x]`. -/
def mirror (g : Grid) : Grid := tabulate (rowsOf g) (colsOf g) fun y x => pixel g y (colsOf g - 1 - x)

/-- INVERT (R123): `R[y][x] = 1 - G[y][x]`. -/
def invert (g : Grid) : Grid := tabulate (rowsOf g) (colsOf g) fun y x => !pixel g y x

/-- ORIENT (R124): rotate, then mirror, then invert. -/
def orient (c : CfgRegs) (g : Grid) : Grid :=
  let turned := rotate g (rotDegrees c.rot)
  let mirrored := if c.mir then mirror turned else turned
  if c.inv then invert mirrored else mirrored

/-! ## Luminance thresholder -/

/-- LUMABIT (R125), the normative integer form (decision D6). -/
def lumaBit (r g b : Byte) : Pixel :=
  if 2126 * r.toNat + 7152 * g.toNat + 722 * b.toNat < 1275000 then false else true

/-- RGBA2BIN (R126): the alpha byte is not read. -/
def rgbaToBinary (buf : List Byte) (w h : Nat) : Grid :=
  tabulate h w fun y x =>
    lumaBit (memRead buf (rgbaOffset w y x 0)) (memRead buf (rgbaOffset w y x 1)) (memRead buf (rgbaOffset w y x 2))

/-! ## Nearest-neighbour resampler -/

/-- The source index `floor((i * src) / dst)` (R127, decision D7). -/
def sampleIndex (i src dst : Nat) : Nat := i * src / dst

/-- RESIZE (R127): four bytes a pixel, row-major; the no-op when the sizes are equal. -/
def resize (buf : List Byte) (w h w2 h2 : Nat) : List Byte :=
  if w2 = w ∧ h2 = h then buf
  else
    (List.range h2).flatMap fun y2 =>
      (List.range w2).flatMap fun x2 =>
        (List.range 4).map fun k => memRead buf (rgbaOffset w (sampleIndex y2 h h2) (sampleIndex x2 w w2) k)

/-- RESIZEG (R128): the same sampling rule on one bit a pixel (decision D14). -/
def resizeGrid (g : Grid) (w2 h2 : Nat) : Grid :=
  tabulate h2 w2 fun y2 x2 => pixel g (sampleIndex y2 (rowsOf g) h2) (sampleIndex x2 (colsOf g) w2)

/-! ## Bit-packer -/

/-- The value of a group of `range` bits: element `j` goes to bit `range-1-j` (R63 (a), R129). -/
def packGroup (range : Nat) (bit : Nat → Pixel) : Nat :=
  ((List.range range).map fun j => bitNat (bit j) * 2 ^ (range - 1 - j)).sum

/-- BITREV8 (R130): `out = sum over i of v[i] * 2^(7-i)`. -/
def bitRev8 (v : Byte) : Byte :=
  BitVec.ofNat 8 (((List.range 8).map fun i => bitNat (v.getLsbD i) * 2 ^ (7 - i)).sum)

/-- PACKBITS (R129): one byte per column (axis 0) or per row (axis 1), reversed when the order is "little". -/
def packBits (g : Grid) (axis : Axis) (order : BitOrder) : List Byte :=
  let big : List Byte :=
    match axis with
    | .columns => (List.range (colsOf g)).map fun x => BitVec.ofNat 8 (packGroup (rowsOf g) fun j => pixel g j x)
    | .rows => (List.range (rowsOf g)).map fun y => BitVec.ofNat 8 (packGroup (colsOf g) fun j => pixel g y j)
  match order with
  | .big => big
  | .little => big.map bitRev8

/-! ## Fingerprint and equality -/

/-- FLAT (R132): a grid as one byte a pixel, row-major; an RGBA buffer as it is. -/
def flatten (f : Frame) : List Byte :=
  match f with
  | .grid g => g.flatMap fun row => row.map pixelByte
  | .rgba buf => buf
  | .other => []

/-- FPRINT (R131): FP of the concatenated flattenings. -/
def fingerprint (frames : List Frame) : Digest := Config.fp (frames.flatMap flatten)

/-- CONTENTEQ (R133): dimension check, then elementwise equality. -/
def contentEq (a b : Grid) : Bool :=
  if rowsOf a ≠ rowsOf b ∨ colsOf a ≠ colsOf b then false
  else (List.range (rowsOf a)).all fun y => (List.range (colsOf a)).all fun x => pixel a y x == pixel b y x

end Sys2Proof.Machine
end

