-- ==== Sys2Proof/Machine/Encoders.lean ====
section
/-! DEFINITION. The three protocol encoders and the segment writes of 41_panel_encoders.md (R153 to R160), on the
content of a panel register. HEXEXPAND, CHKSUM and the frame layouts stand in Sys2Proof/Decode.lean. -/

namespace Sys2Proof.Machine

/-- ENCA (R153): the Type A frame of the packed columns. -/
def encA (addr : Byte) (content : Grid) (flush : Bool) : List Byte :=
  typeAFrame flush addr (packBits content .columns .big)

/-- ENCB (R154): the Type B frame of the packed columns; the flush flag is ignored (decision D12). -/
def encB (addr : Byte) (content : Grid) (_flush : Bool) : List Byte :=
  typeBFrame addr (packBits content .columns .big)

/-- SETVERT (R155) on the digits of a register of `ph` by `pw` digits: segments 1, 5, 2, 4 take the 2 x 2 block;
0, 3, 6 are left as they were. -/
def vertDigits (ph pw : Nat) (digits : List (List Segs)) (v : Grid) : List (List Segs) :=
  tabulate ph pw fun dy dx =>
    { digitAt digits dy dx with
      s1 := pixel v (2 * dy) (2 * dx), s5 := pixel v (2 * dy) (2 * dx + 1),
      s2 := pixel v (2 * dy + 1) (2 * dx), s4 := pixel v (2 * dy + 1) (2 * dx + 1) }

/-- SETHORIZ (R156) on the digits: segments 6, 0, 3 take the 1 x 3 block; 1, 2, 4, 5 are left as they were. -/
def horizDigits (ph pw : Nat) (digits : List (List Segs)) (h : Grid) : List (List Segs) :=
  tabulate ph pw fun dy dx =>
    { digitAt digits dy dx with
      s6 := pixel h (3 * dy) dx, s0 := pixel h (3 * dy + 1) dx, s3 := pixel h (3 * dy + 2) dx }

/-- DIGITVAL (R157): bit `i` of the value is segment `i`. -/
def digitVal (s : Segs) : Nat :=
  bitNat s.s0 * 1 + bitNat s.s1 * 2 + bitNat s.s2 * 4 + bitNat s.s3 * 8 + bitNat s.s4 * 16 + bitNat s.s5 * 32 +
    bitNat s.s6 * 64

/-- ENCSEG (R158): the Type A frame whose data are the digit values, row-major (decision D13). -/
def encSeg (addr : Byte) (digits : List (List Segs)) (flush : Bool) : List Byte :=
  typeAFrame flush addr (digits.flatMap fun row => row.map fun s => BitVec.ofNat 8 (digitVal s))

/-- ENCODE (R159): the encoder of the configured variant; none for a register of the other variant, which no
operation makes. -/
def encodePanel (pt : PanelType) (p : Panel) (addr : Byte) (flush : Bool) : Option (List Byte) :=
  match pt, p with
  | .a, .dot g => some (encA addr g flush)
  | .b, .dot g => some (encB addr g flush)
  | .seg, .seg digits => some (encSeg addr digits flush)
  | .a, .seg _ => none
  | .b, .seg _ => none
  | .seg, .dot _ => none

/-- The length of one panel's frame, fixed by the configuration (R99, R302). -/
def frameLength (c : CfgRegs) : Nat :=
  match c.ptype with
  | .a => c.pw + 4
  | .b => 2 * c.pw + 8
  | .seg => c.pw * c.ph + 4

end Sys2Proof.Machine
end

