-- ==== Sys2Proof/Machine/Ops.lean ====
section
/-! DEFINITION. The named operations over the state: taking an error (R258), the ports (R7), panel writes (R150, R155,
R156). Every meaning writes the state through these. -/

namespace Sys2Proof.Machine

/-! ## Taking an error (R258) and returning (R259) -/

/-- The code number of an error (R250). -/
def errCode (e : Err) : Nat :=
  match e with
  | .cfgEmptyLayout => 1
  | .cfgRaggedLayout => 2
  | .cfgEmptyDevices => 3
  | .cfgBadDescriptor _ => 4
  | .cfgBadOption => 5
  | .valShape => 16
  | .valKind => 17
  | .notConfigured => 64
  | .illegalOp _ => 65
  | .alreadyConfigured => 66

/-- The value an error records (R250). -/
def errRecorded (e : Err) : Option Nat :=
  match e with
  | .cfgBadDescriptor d => some d
  | .illegalOp op => some op.toNat
  | .cfgEmptyLayout => none
  | .cfgRaggedLayout => none
  | .cfgEmptyDevices => none
  | .cfgBadOption => none
  | .valShape => none
  | .valKind => none
  | .notConfigured => none
  | .alreadyConfigured => none

/-- The code number of a warning (R250). -/
def warnCode (w : Warning) : Nat :=
  match w with
  | .transportOpen _ => 32
  | .transportWrite _ => 33
  | .transportClose _ => 34
  | .queueFull => 48
  | .rate _ => 49
  | .drainValidation _ => 50

/-- The value a warning records (R250). -/
def warnRecorded (w : Warning) : Option Nat :=
  match w with
  | .transportOpen d => some d
  | .transportWrite d => some d
  | .transportClose _ => none
  | .queueFull => none
  | .rate interval => some interval
  | .drainValidation e => some (errCode e)

/-- `raise E` (R7, R258): the RESULT port carries the error and all state is as it was before the operation. There
is no handler and nothing to return from (R259): the next operation simply follows. -/
def raise (e : Err) (s : State) : State := { s with result := some (.error e) }

/-- `return S` of a host command (R7): the RESULT port carries the status. -/
def answer (st : Status) (s : State) : State := { s with result := some (.status st) }

/-- What a sub-step or a function returns to the rule that invoked it (log 5). -/
def ret (v : Value) (s : State) : State := { s with value := v }

/-! ## The output ports (R7, R31) -/

/-- `emit Warn(code, info)`: "appends `(code, info)` to WARNLOG; that is its whole effect" (R250). -/
def warn (w : Warning) (s : State) : State := { s with warnLog := s.warnLog ++ [w] }

/-- `emit Write(d, bytes)` (R65). -/
def emitWrite (d : Nat) (bytes : List Byte) (s : State) : State := { s with out := s.out ++ [⟨d, bytes⟩] }

/-- `emit Open(d)` (R7). -/
def emitOpen (d : Nat) (s : State) : State := { s with openReq := s.openReq ++ [d] }

/-! ## Panel registers (R150, R155, R156) -/

/-- `P[r][c] <- p`. -/
def putPanel (r c : Nat) (p : Panel) (s : State) : State :=
  { s with panels := s.panels.set r ((s.panels.getD r []).set c p) }

/-- SETCONTENT (R150): `p <- g`, the whole grid at once, without a size check (log 29). -/
def setContent (r c : Nat) (g : Grid) (s : State) : State := putPanel r c (.dot g) s

/-- SETVERT (R155). -/
def setVert (r c : Nat) (v : Grid) (s : State) : State :=
  match getPanel s r c with
  | some (.seg digits) => putPanel r c (.seg (vertDigits s.cfg.ph s.cfg.pw digits v)) s
  | some (.dot _) => s
  | none => s

/-- SETHORIZ (R156). -/
def setHoriz (r c : Nat) (h : Grid) (s : State) : State :=
  match getPanel s r c with
  | some (.seg digits) => putPanel r c (.seg (horizDigits s.cfg.ph s.cfg.pw digits h)) s
  | some (.dot _) => s
  | none => s

/-- `ENCODE(P[r][c], flush)` (R159) inside a fan-out. -/
def encodeAt (r c : Nat) (flush : Bool) (s : State) : List Byte :=
  match getPanel s r c with
  | some p => (encodePanel s.cfg.ptype p (addrAt s.cfg r c) flush).getD []
  | none => []

/-! ## The schedule and the TIME port (logs 1, 18) -/

/-- The `now` an operation carries (R93, R94). -/
def nowOf (i : Instr) : Nat :=
  match i with
  | .send _ _ now => now
  | .drain now => now
  | _ => 0

/-- The next operation of the schedule is presented: it leaves the schedule, and TIME is at least its `now`. -/
def present (rest : List Code) (now : Nat) (s : State) : State :=
  { s with schedule := rest, time := max s.time now }

/-- The drain sequencer takes DRAIN by itself, at a time not before any earlier operation's (R236, R232). -/
def selfDrainTime (s : State) : Nat := s.time + Config.drainDelay s.freeCtr

/-- The state a self-started DRAIN runs in: a free value has been drawn and TIME has advanced. -/
def selfDrainState (s : State) : State := { s with time := selfDrainTime s, freeCtr := s.freeCtr + 1 }

end Sys2Proof.Machine
end

