-- ==== Sys2Proof/Machine/Flags.lean ====
section
/-! DEFINITION. The two latches (R26): each gates one warning, is set the first time its condition holds, and is
cleared by RESET alone (R259, decision D39). There are no condition codes. -/

namespace Sys2Proof.Machine

/-- An item is dropped because the queue is full (R231): W_QUEUE_FULL the first time. -/
def noteOverflow (s : State) : State :=
  if s.ovfWarned then s else { warn .queueFull s with ovfWarned := true }

/-- A dispatched send follows the previous one by `interval`, less than MINI (R186): W_RATE the first time. -/
def noteRate (interval : Nat) (s : State) : State :=
  if s.rateWarned then s else { warn (.rate interval) s with rateWarned := true }

end Sys2Proof.Machine
end

