-- ==== Sys2Proof/Machine/SendPath.lean ====
section
/-! DEFINITION. The sub-steps of a dispatched send (42_display_send.md, 43_segment_display.md) and of a queued one
(R231), shared by SEND, by DRAIN and by the STEP rows. -/

namespace Sys2Proof.Machine

/-! ## Validation and the duplicate filter -/

/-- VALIDATE (R181): the error it raises, if any. -/
def validateFrame (c : CfgRegs) (f : Frame) : Option Err :=
  match f with
  | .grid rows => if hasSize rows (geomOf c).height (geomOf c).width then none else some .valShape
  | .rgba buf => if buf.length = (geomOf c).width * (geomOf c).height * 4 then none else some .valShape
  | .other => some .valKind

/-- `LAST_FP = some fp` (R182). -/
def isDuplicate (s : State) (fp : Digest) : Bool :=
  match s.lastFp with
  | none => false
  | some last => last == fp

/-! ## Preparation -/

/-- PREP (R183): resize (a no-op for DotPanels), threshold, orient. -/
def prepGrid (c : CfgRegs) (f : Frame) : Grid :=
  let w := (geomOf c).width
  let h := (geomOf c).height
  match f with
  | .rgba buf => orient c (rgbaToBinary (resize buf w h w h) w h)
  | .grid g => orient c g
  | .other => []

/-- SEGPREP (R211): the two sub-frames, resized from the same source, thresholded, oriented. -/
def segPrep (c : CfgRegs) (f : Frame) : SubFrames :=
  let w := (geomOf c).width
  let h := (geomOf c).height
  let sg := segGeomOf c
  match f with
  | .rgba buf =>
    let subV := resize buf w h sg.vwe sg.vhe
    let subH := resize buf w h sg.hwe sg.hhe
    { subV := .rgba subV, subH := .rgba subH, gv := orient c (rgbaToBinary subV sg.vwe sg.vhe),
      gh := orient c (rgbaToBinary subH sg.hwe sg.hhe) }
  | .grid g =>
    let subV := resizeGrid g sg.vwe sg.vhe
    let subH := resizeGrid g sg.hwe sg.hhe
    { subV := .grid subV, subH := .grid subH, gv := orient c subV, gh := orient c subH }
  | .other => { subV := .other, subH := .other, gv := [], gh := [] }

/-- SLICE (R184): `S[y][x] = G[r*th + y][c*tw + x]`. -/
def sliceGrid (g : Grid) (r c th tw : Nat) : Grid := tabulate th tw fun y x => pixel g (r * th + y) (c * tw + x)

/-- SEGSLICE (R213), its vertical half. -/
def segSliceV (c : CfgRegs) (gv : Grid) (r col : Nat) : Grid := sliceGrid gv r col (2 * c.ph) (2 * c.pw)

/-- SEGSLICE (R213), its horizontal half. -/
def segSliceH (c : CfgRegs) (gh : Grid) (r col : Nat) : Grid := sliceGrid gh r col (3 * c.ph) c.pw

/-! ## Fan-out -/

/-- One layout cell of one device's pass (R185, R214): when the device serves the cell, its register is written by
`put` and its frame is added to the payload. -/
def fanoutCell (put : Nat → Nat → State → State) (flush : Bool) (da : DevAddr) (acc : State × List Byte)
    (cell : Nat × Nat) : State × List Byte :=
  if serves da (addrAt acc.1.cfg cell.1 cell.2) then
    let s := put cell.1 cell.2 acc.1
    (s, acc.2 ++ encodeAt cell.1 cell.2 flush s)
  else acc

/-- One device's pass: the cells in row-major order, then one write of the whole payload, empty or not (R185 (b)). -/
def fanoutDevice (put : Nat → Nat → State → State) (flush : Bool) (s : State) (d : Nat) : State :=
  let done := (cells s.cfg).foldl (fanoutCell put flush (devAddrAt s.cfg d)) (s, [])
  emitWrite d done.2 done.1

/-- All devices, in configuration-list order (R185, decision D26). -/
def fanoutAll (put : Nat → Nat → State → State) (flush : Bool) (s : State) : State :=
  (List.range s.cfg.ndev).foldl (fanoutDevice put flush) s

/-- The register write of FANOUT (R185): SETCONTENT of the cell's slice. -/
def putSlice (g : Grid) (r c : Nat) (s : State) : State :=
  setContent r c (sliceGrid g r c s.cfg.ph s.cfg.pw) s

/-- The register writes of SEGFANOUT (R214): SETVERT first, SETHORIZ second. -/
def putSegSlices (gv gh : Grid) (r c : Nat) (s : State) : State :=
  setHoriz r c (segSliceH s.cfg gh r c) (setVert r c (segSliceV s.cfg gv r c) s)

/-- FANOUT (R185). -/
def fanoutDot (g : Grid) (flush : Bool) (s : State) : State := fanoutAll (putSlice g) flush s

/-- SEGFANOUT (R214). -/
def fanoutSeg (gv gh : Grid) (flush : Bool) (s : State) : State := fanoutAll (putSegSlices gv gh) flush s

/-! ## Recording -/

/-- RECORD (R186). `now - t` is on naturals (D20); U10 allows truncation for a `now` before LAST_TS (log 17). -/
def recordSend (fp : Digest) (now : Nat) (s : State) : State :=
  let s1 := { s with lastFp := some fp }
  let s2 :=
    match s.lastTs with
    | some t => if now - t < s.cfg.mini then noteRate (now - t) s1 else s1
    | none => s1
  { s2 with lastTs := some now }

/-! ## The two cores -/

/-- DOTCORE (R188): steps 2 to 5 for a Display of DotPanels. An error comes before any write. -/
def dotCore (f : Frame) (flush : Bool) (now : Nat) (s : State) : Except Err (Status × State) :=
  match validateFrame s.cfg f with
  | some e => .error e
  | none =>
    let fp := fingerprint [f]
    if isDuplicate s fp then .ok (.duplicate, s)
    else .ok (.dispatched, recordSend fp now (fanoutDot (prepGrid s.cfg f) flush s))

/-- SEGCORE (R215): steps 2 to 5 for a SegmentDisplay. -/
def segCore (f : Frame) (flush : Bool) (now : Nat) (s : State) : Except Err (Status × State) :=
  match validateFrame s.cfg f with
  | some e => .error e
  | none =>
    let sub := segPrep s.cfg f
    let fp := fingerprint [sub.subV, sub.subH]
    if isDuplicate s fp then .ok (.duplicate, s)
    else .ok (.dispatched, recordSend fp now (fanoutSeg sub.gv sub.gh flush s))

/-- The core the configured variant selects (R187, R232). -/
def sendCore (f : Frame) (flush : Bool) (now : Nat) (s : State) : Except Err (Status × State) :=
  if s.cfg.ptype = .seg then segCore f flush now s else dotCore f flush now s

/-! ## The queue (R231, R232) -/

/-- ENQUEUE (R231): drop-newest; the frame is stored as it is, unvalidated. -/
def enqueueFrame (f : Frame) (flush : Bool) (s : State) : Status × State :=
  if s.q.length < s.cfg.maxq then (.queued, { s with q := s.q ++ [⟨f, flush⟩] }) else (.dropped, noteOverflow s)

/-- DRAIN is enabled (R232): `CFGD = 1 and CONN = Connected and Q != []`. -/
def drainEnabled (s : State) : Bool := s.cfgd && s.conn == .connected && !s.q.isEmpty

/-- One enabled DRAIN (R232): the head leaves Q and takes the normal send path; an error becomes a warning. -/
def drainOne (now : Nat) (s : State) : State :=
  match s.q with
  | [] => s
  | e :: rest =>
    match sendCore e.frame e.flush now { s with q := rest } with
    | .error err => warn (.drainValidation err) { s with q := rest }
    | .ok (_, t) => t

end Sys2Proof.Machine
end

