-- ==== Sys2Proof/Machine/DotSteps.lean ====
section
/-! DEFINITION. The meanings of the STEP rows of 42_display_send.md (R180 to R188). A sub-step that reads a
configuration register faults while CFGD = 0 (log 10); what it returns goes to VALUE (log 5), what it raises to
RESULT. -/

namespace Sys2Proof.Machine

/-- GEOM (R180). -/
def execGeom (s : State) : Host.Outcome State Fault Refusal :=
  if s.cfgd then .next (ret (.geom (geomOf s.cfg)) s) else .fault .unconfigured

/-- VALIDATE (R181). -/
def execValidate (frame : Frame) (s : State) : Host.Outcome State Fault Refusal :=
  if s.cfgd then
    match validateFrame s.cfg frame with
    | none => .next (ret .nothing s)
    | some e => .next (raise e s)
  else .fault .unconfigured

/-- DEDUP (R182): the fingerprint and whether it is LAST_FP. -/
def execDedup (frame : Frame) (s : State) : Host.Outcome State Fault Refusal :=
  if frameOk frame then
    .next (ret (.dedup (fingerprint [frame]) (isDuplicate s (fingerprint [frame]))) s)
  else .refused .outsideDomain

/-- PREP (R183) of a frame VALIDATE accepts. -/
def execPrep (frame : Frame) (s : State) : Host.Outcome State Fault Refusal :=
  if s.cfgd then
    if validateFrame s.cfg frame = none then .next (ret (.grid (prepGrid s.cfg frame)) s)
    else .refused .frameNotValidated
  else .fault .unconfigured

/-- SLICE (R184). -/
def execSlice (g : Grid) (r c th tw : Nat) (s : State) : Host.Outcome State Fault Refusal :=
  if sliceOk g r c th tw then .next (ret (.grid (sliceGrid g r c th tw)) s) else .refused .outsideDomain

/-- FANOUT (R185) of a grid of DEVH rows and DEVW columns. -/
def execFanout (g : Grid) (flush : Bool) (s : State) : Host.Outcome State Fault Refusal :=
  if s.cfgd then
    if s.cfg.ptype = .seg then .refused .wrongPanelType
    else if hasSize g (geomOf s.cfg).devH (geomOf s.cfg).devW then .next (ret .nothing (fanoutDot g flush s))
    else .refused .gridSize
  else .fault .unconfigured

/-- RECORD (R186). -/
def execRecord (fp : Digest) (now : Nat) (s : State) : Host.Outcome State Fault Refusal :=
  if s.cfgd then .next (ret .nothing (recordSend fp now s)) else .fault .unconfigured

/-- DOTCORE (R188). -/
def execDotcore (frame : Frame) (flush : Bool) (now : Nat) (s : State) : Host.Outcome State Fault Refusal :=
  if s.cfgd then
    if s.cfg.ptype = .seg then .refused .wrongPanelType
    else
      match dotCore frame flush now s with
      | .error e => .next (raise e s)
      | .ok (st, t) => .next (ret (.status st) t)
  else .fault .unconfigured

end Sys2Proof.Machine
end

