-- ==== Sys2Proof/Machine/FrameFns.lean ====
section
/-! DEFINITION. The meanings of the FN rows of 40_frame_utilities.md (R120 to R133): the function's result goes to
VALUE (log 5); an operand outside the stated domain is refused by name (logs 12, 13). -/

namespace Sys2Proof.Machine

/-- ROT90 (R120). -/
def execRot90 (g : Grid) (s : State) : Host.Outcome State Fault Refusal :=
  if gridOk g then .next (ret (.grid (rot90 g)) s) else .refused .outsideDomain

/-- ROTATE (R121). -/
def execRotate (g : Grid) (degrees : Int) (s : State) : Host.Outcome State Fault Refusal :=
  if gridOk g then
    if angleOk degrees then .next (ret (.grid (rotate g degrees)) s) else .refused .rotationAngle
  else .refused .outsideDomain

/-- MIRROR (R122). -/
def execMirror (g : Grid) (s : State) : Host.Outcome State Fault Refusal :=
  if gridOk g then .next (ret (.grid (mirror g)) s) else .refused .outsideDomain

/-- INVERT (R123). -/
def execInvert (g : Grid) (s : State) : Host.Outcome State Fault Refusal :=
  if gridOk g then .next (ret (.grid (invert g)) s) else .refused .outsideDomain

/-- ORIENT (R124): reads ROT, MIR and INV. -/
def execOrient (g : Grid) (s : State) : Host.Outcome State Fault Refusal :=
  if s.cfgd then
    if gridOk g then .next (ret (.grid (orient s.cfg g)) s) else .refused .outsideDomain
  else .fault .unconfigured

/-- LUMABIT (R125). -/
def execLumabit (r g b : Byte) (s : State) : Host.Outcome State Fault Refusal := .next (ret (.bit (lumaBit r g b)) s)

/-- RGBA2BIN (R126). -/
def execRgba2bin (buf : List Byte) (w h : Nat) (s : State) : Host.Outcome State Fault Refusal :=
  if rgbaOk buf w h then .next (ret (.grid (rgbaToBinary buf w h)) s) else .refused .outsideDomain

/-- RESIZE (R127). -/
def execResize (buf : List Byte) (w h w2 h2 : Nat) (s : State) : Host.Outcome State Fault Refusal :=
  if rgbaOk buf w h && 1 ≤ w2 && 1 ≤ h2 then .next (ret (.bytes (resize buf w h w2 h2)) s)
  else .refused .outsideDomain

/-- RESIZEG (R128). -/
def execResizeg (g : Grid) (w2 h2 : Nat) (s : State) : Host.Outcome State Fault Refusal :=
  if gridOk g && 1 ≤ w2 && 1 ≤ h2 then .next (ret (.grid (resizeGrid g w2 h2)) s) else .refused .outsideDomain

/-- PACKBITS (R129). -/
def execPackbits (g : Grid) (axis : Axis) (order : BitOrder) (s : State) : Host.Outcome State Fault Refusal :=
  if gridOk g then
    if packOk g axis then .next (ret (.bytes (packBits g axis order)) s) else .refused .packRange
  else .refused .outsideDomain

/-- BITREV8 (R130). -/
def execBitrev8 (v : Byte) (s : State) : Host.Outcome State Fault Refusal := .next (ret (.byte (bitRev8 v)) s)

/-- FPRINT (R131) of one or more frames. -/
def execFprint (frames : List Frame) (s : State) : Host.Outcome State Fault Refusal :=
  if !frames.isEmpty && frames.all frameOk then .next (ret (.digest (fingerprint frames)) s)
  else .refused .outsideDomain

/-- FLAT (R132). -/
def execFlat (frame : Frame) (s : State) : Host.Outcome State Fault Refusal :=
  if frameOk frame then .next (ret (.bytes (flatten frame)) s) else .refused .outsideDomain

/-- CONTENTEQ (R133). -/
def execContenteq (a b : Grid) (s : State) : Host.Outcome State Fault Refusal :=
  if gridOk a && gridOk b then .next (ret (.bit (contentEq a b)) s) else .refused .outsideDomain

end Sys2Proof.Machine
end

