-- ==== Sys2Proof/Machine/Lifecycle.lean ====
section
/-! DEFINITION. Construction and the connection state machine (44_lifecycle_queue.md): CHECKCFG, BUILDPANELS,
BEGINOPEN, the device events, RESET (R290). -/

namespace Sys2Proof.Machine

/-! ## CHECKCFG (R226) -/

/-- ROT from degrees, when they are one of the four. -/
def rotationOf (degrees : Nat) : Option Rotation :=
  if degrees = 0 then some .r0
  else if degrees = 90 then some .r90
  else if degrees = 180 then some .r180
  else if degrees = 270 then some .r270
  else none

/-- PTYPE, when it is one of the three. -/
def panelTypeOf (p : PTypeField) : Option PanelType :=
  match p with
  | .known t => some t
  | .other => none

/-- An address in 0..255 (decision D10). -/
def addressOk (a : Int) : Bool := 0 ≤ a && a ≤ 255

/-- An address inserted into a strictly rising list, once. -/
def insertAddr (a : Int) : List Int → List Int
  | [] => [a]
  | b :: bs => if a < b then a :: b :: bs else if a = b then b :: bs else b :: insertAddr a bs

/-- "the set of DEVICES[d].addrs" (R226) as a strictly rising list (log 21). -/
def addrSet (addrs : List Int) : List Int := addrs.foldr insertAddr []

/-- DEVADDR[d]: ALL when there is no address list, else its set (R226). -/
def devAddrOf (d : DeviceEntry) : DevAddr :=
  match d.addrs with
  | none => .all
  | some addrs => .only (addrSet addrs)

/-- The indices of the devices that fail a check. -/
def failing (p : DeviceEntry → Bool) (ds : List DeviceEntry) : List Nat :=
  (List.range ds.length).filter fun d =>
    match ds[d]? with
    | some e => p e
    | none => false

/-- The device index E_CFG_BAD_DESCRIPTOR records: the one that fails, a free one of them when several do (log 16). -/
def blamed (ds : List Nat) : Nat :=
  match ds with
  | [] => 0
  | [d] => d
  | d :: e :: rest => (d :: e :: rest).getD (Config.pickDevice (d :: e :: rest) % (d :: e :: rest).length) d

/-- Check 2: some row's length differs from the first row's. -/
def isRagged (layout : List (List Int)) : Bool := layout.any fun row => row.length != (layout.headD []).length

/-- Check 6's conditions on the sizes and the addresses. -/
def sizesOk (r : CfgRecord) (pt : PanelType) : Bool :=
  1 ≤ r.pw && 1 ≤ r.ph && (pt == .seg || r.ph ≤ 8) && r.layout.all fun row => row.all addressOk

/-- Check 6: the legal ROT and PTYPE, if all options are legal. -/
def optionsOf (r : CfgRecord) : Option (Rotation × PanelType) :=
  match rotationOf (r.rot.getD Config.defaultRot), panelTypeOf r.ptype with
  | some rot, some pt => if sizesOk r pt then some (rot, pt) else none
  | _, _ => none

/-- The configuration registers of a checked record: defaults applied, ROWS, COLS, NDEV, DEVADDR derived (R226). -/
def regsOf (r : CfgRecord) (rot : Rotation) (pt : PanelType) : CfgRegs :=
  { rot, mir := r.mir.getD Config.defaultMir, inv := r.inv.getD Config.defaultInv, ptype := pt, pw := r.pw,
    ph := r.ph, mini := r.mini, maxq := r.maxq.getD Config.defaultMaxq, rows := r.layout.length,
    cols := (r.layout.headD []).length, layout := r.layout.map fun row => row.map (BitVec.ofInt 8),
    ndev := r.devices.length, devAddr := r.devices.map devAddrOf }

/-- CHECKCFG (R226): the six checks in order, the first that fails decides the error; else the registers. -/
def checkCfg (r : CfgRecord) : Except Err CfgRegs :=
  if r.layout.isEmpty || (r.layout.headD []).isEmpty then .error .cfgEmptyLayout
  else if isRagged r.layout then .error .cfgRaggedLayout
  else if r.devices.isEmpty then .error .cfgEmptyDevices
  else if r.devices.any (fun d => !d.ok) then .error (.cfgBadDescriptor (blamed (failing (fun d => !d.ok) r.devices)))
  else if 1 < r.devices.length && r.devices.any (fun d => d.addrs.isNone) then
    .error (.cfgBadDescriptor (blamed (failing (fun d => d.addrs.isNone) r.devices)))
  else
    match optionsOf r with
    | none => .error .cfgBadOption
    | some (rot, pt) => .ok (regsOf r rot pt)

/-! ## BUILDPANELS and BEGINOPEN -/

/-- The register BUILDPANELS creates at `(r, c)`: of the configured variant and size, its content free (R227, R32;
log 8). -/
def freshPanel (c : CfgRegs) (draw r col : Nat) : Panel :=
  match c.ptype with
  | .seg =>
    .seg (tabulate c.ph c.pw fun dy dx =>
      let bit := Config.freeSegment draw r col dy dx
      ⟨bit 0, bit 1, bit 2, bit 3, bit 4, bit 5, bit 6⟩)
  | .a => .dot (tabulate c.ph c.pw (Config.freePixel draw r col))
  | .b => .dot (tabulate c.ph c.pw (Config.freePixel draw r col))

/-- BUILDPANELS (R227). -/
def buildPanels (s : State) : State :=
  { s with panels := tabulate s.cfg.rows s.cfg.cols (freshPanel s.cfg s.freeCtr), freeCtr := s.freeCtr + 1 }

/-- BEGINOPEN (R228): every device is asked to open, in list order; then CONN is Connecting. -/
def beginOpen (s : State) : State :=
  { (List.range s.cfg.ndev).foldl (fun t d => emitOpen d t) s with conn := .connecting }

/-- CFG after its checks (R225), in the rule's order. -/
def construct (c : CfgRegs) (s : State) : State :=
  let s1 := buildPanels { s with cfg := c, cfgd := true }
  let s2 :=
    { s1 with
      devDone := List.replicate c.ndev false, devOpen := List.replicate c.ndev false, q := [], lastFp := none,
      lastTs := none, ovfWarned := false, rateWarned := false, conn := .disconnected }
  beginOpen s2

/-! ## Device events (R229, R230, R233) -/

/-- `DEV_DONE[d]` (R28). -/
def doneAt (s : State) (d : Nat) : Bool := s.devDone.getD d false

/-- The join's condition (R230): every configured device has completed its open attempt. -/
def allDone (s : State) : Bool := (List.range s.cfg.ndev).all fun e => doneAt s e

/-- DEV_OPEN_DONE (R229) with the join (R230). -/
def openDone (d : Nat) (err : Bool) (s : State) : State :=
  if s.cfgd = false ∨ s.cfg.ndev ≤ d ∨ doneAt s d = true then s
  else
    let s1 := { s with devDone := s.devDone.set d true, devOpen := s.devOpen.set d (!err) }
    let s2 := if err then warn (.transportOpen d) s1 else s1
    if allDone s2 then { s2 with conn := .connected } else s2

/-- DEV_WRITE_DONE (R233). -/
def writeDone (d : Nat) (err : Bool) (s : State) : State :=
  if s.cfgd = true ∧ d < s.cfg.ndev ∧ err = true then warn (.transportWrite d) s else s

/-! ## RESET (R290) -/

/-- RESET: every piece of the spec's state at its reset value (R32); the model's schedule, TIME and free-value
counter go on (log 26). -/
def resetState (s : State) : State :=
  { State.reset with schedule := s.schedule, time := s.time, freeCtr := s.freeCtr }

end Sys2Proof.Machine
end

