-- ==== Sys2Proof/Machine/LifeSteps.lean ====
section
/-! DEFINITION. The meanings of the STEP rows of 44_lifecycle_queue.md (R226 to R228, R231). -/

namespace Sys2Proof.Machine

/-- CHECKCFG (R226): the checked registers, or the first failing check's error. It reads no state. -/
def execCheckcfg (rec : CfgRecord) (s : State) : Host.Outcome State Fault Refusal :=
  match checkCfg rec with
  | .error e => .next (raise e s)
  | .ok c => .next (ret (.regs c) s)

/-- BUILDPANELS (R227). -/
def execBuildpanels (s : State) : Host.Outcome State Fault Refusal :=
  if s.cfgd then .next (ret .nothing (buildPanels s)) else .fault .unconfigured

/-- BEGINOPEN (R228). -/
def execBeginopen (s : State) : Host.Outcome State Fault Refusal :=
  if s.cfgd then .next (ret .nothing (beginOpen s)) else .fault .unconfigured

/-- ENQUEUE (R231): returns S_QUEUED or S_DROPPED. -/
def execEnqueue (frame : Frame) (flush : Bool) (s : State) : Host.Outcome State Fault Refusal :=
  if s.cfgd then
    let r := enqueueFrame frame flush s
    .next (ret (.status r.1) r.2)
  else .fault .unconfigured

end Sys2Proof.Machine
end

