-- ==== Sys2Proof/Machine/Operations.lean ====
section
/-! DEFINITION. The meanings of the six OP rows (R91): the operations a step runs. Each ends in a next state. -/

namespace Sys2Proof.Machine

/-- RESET (R290): accepted in every mode. -/
def execReset (s : State) : Host.Outcome State Fault Refusal := .next (resetState s)

/-- CFG (R225): `E_ALREADY_CONFIGURED` before all checks (R257 (a)), then the first failing check's error, else the
Display is constructed and `S_OK` returned. -/
def execCfg (rec : CfgRecord) (s : State) : Host.Outcome State Fault Refusal :=
  if s.cfgd then .next (raise .alreadyConfigured s)
  else
    match checkCfg rec with
    | .error e => .next (raise e s)
    | .ok c => .next (answer .ok (construct c s))

/-- SEND (R187): refused while unconfigured, queued while not connected, else the core of the configured variant. -/
def execSend (frame : Frame) (flush : Bool) (now : Nat) (s : State) : Host.Outcome State Fault Refusal :=
  if s.cfgd = false then .next (raise .notConfigured s)
  else if s.conn ≠ .connected then
    let r := enqueueFrame frame flush s
    .next (answer r.1 r.2)
  else
    match sendCore frame flush now s with
    | .error e => .next (raise e s)
    | .ok (st, t) => .next (answer st t)

/-- DEV_OPEN_DONE (R229). -/
def execDevOpenDone (d : Nat) (err : Bool) (s : State) : Host.Outcome State Fault Refusal := .next (openDone d err s)

/-- DEV_WRITE_DONE (R233). -/
def execDevWriteDone (d : Nat) (err : Bool) (s : State) : Host.Outcome State Fault Refusal :=
  .next (writeDone d err s)

/-- DRAIN (R232): "a model that is handed a DRAIN while it is not enabled leaves the state unchanged". -/
def execDrain (now : Nat) (s : State) : Host.Outcome State Fault Refusal :=
  if drainEnabled s then .next (drainOne now s) else .next s

end Sys2Proof.Machine
end

