-- ==== Sys2Proof/Machine/PanelFns.lean ====
section
/-! DEFINITION. The meanings of the FN rows of 41_panel_encoders.md (R150 to R159). A row that names a panel register
faults while CFGD = 0 and for a cell the layout does not have (logs 10, 11), and is refused for a register of the other
variant (log 14). -/

namespace Sys2Proof.Machine

/-- SETCONTENT (R150), PTYPE in {A, B}. -/
def execSetcontent (r c : Nat) (g : Grid) (s : State) : Host.Outcome State Fault Refusal :=
  if s.cfgd then
    match getPanel s r c with
    | none => .fault .noSuchPanel
    | some _ => if s.cfg.ptype = .seg then .refused .wrongPanelType else .next (ret .nothing (setContent r c g s))
  else .fault .unconfigured

/-- HEXEXPAND (R151). -/
def execHexexpand (bytes : List Byte) (s : State) : Host.Outcome State Fault Refusal :=
  .next (ret (.bytes (hexExpand bytes)) s)

/-- CHKSUM (R152). -/
def execChksum (command : List Byte) (s : State) : Host.Outcome State Fault Refusal :=
  .next (ret (.byte (chkSum command)) s)

/-- The frame of the pixel register `P[r][c]` by the encoder `enc` of the panel type `variant` (R153, R154): the state with
the bytes in VALUE, or where the row stops (logs 10 to 14). -/
def dotPanelFrame (variant : PanelType) (enc : Byte → Grid → Bool → List Byte) (r c : Nat) (flush : Bool) (s : State) :
    Host.Outcome State Fault Refusal :=
  if s.cfgd then
    match getPanel s r c with
    | none => .fault .noSuchPanel
    | some (.seg _) => .refused .wrongPanelType
    | some (.dot g) =>
      if s.cfg.ptype ≠ variant then .refused .wrongPanelType
      else if gridOk g = false then .refused .outsideDomain
      else if packOk g .columns = false then .refused .packRange
      else .next (ret (.bytes (enc (addrAt s.cfg r c) g flush)) s)
  else .fault .unconfigured

/-- The frame of the segment register `P[r][c]` (R158): the state with the bytes in VALUE, or where the row stops (logs 10,
11, 14). -/
def segPanelFrame (r c : Nat) (flush : Bool) (s : State) : Host.Outcome State Fault Refusal :=
  if s.cfgd then
    match getPanel s r c with
    | none => .fault .noSuchPanel
    | some (.dot _) => .refused .wrongPanelType
    | some (.seg digits) =>
      if s.cfg.ptype ≠ .seg then .refused .wrongPanelType
      else .next (ret (.bytes (encSeg (addrAt s.cfg r c) digits flush)) s)
  else .fault .unconfigured

/-- ENCA (R153) of a register of PTYPE A. -/
def execEnca (r c : Nat) (flush : Bool) (s : State) : Host.Outcome State Fault Refusal :=
  dotPanelFrame .a encA r c flush s

/-- ENCB (R154) of a register of PTYPE B. -/
def execEncb (r c : Nat) (flush : Bool) (s : State) : Host.Outcome State Fault Refusal :=
  dotPanelFrame .b encB r c flush s

/-- SETVERT (R155), PTYPE = SEG, of a grid of height `2*PH` and width `2*PW`. -/
def execSetvert (r c : Nat) (v : Grid) (s : State) : Host.Outcome State Fault Refusal :=
  if s.cfgd then
    match getPanel s r c with
    | none => .fault .noSuchPanel
    | some (.dot _) => .refused .wrongPanelType
    | some (.seg _) =>
      if s.cfg.ptype ≠ .seg then .refused .wrongPanelType
      else if hasSize v (2 * s.cfg.ph) (2 * s.cfg.pw) then .next (ret .nothing (setVert r c v s))
      else .refused .outsideDomain
  else .fault .unconfigured

/-- SETHORIZ (R156), PTYPE = SEG, of a grid of height `3*PH` and width `PW`. -/
def execSethoriz (r c : Nat) (h : Grid) (s : State) : Host.Outcome State Fault Refusal :=
  if s.cfgd then
    match getPanel s r c with
    | none => .fault .noSuchPanel
    | some (.dot _) => .refused .wrongPanelType
    | some (.seg _) =>
      if s.cfg.ptype ≠ .seg then .refused .wrongPanelType
      else if hasSize h (3 * s.cfg.ph) s.cfg.pw then .next (ret .nothing (setHoriz r c h s))
      else .refused .outsideDomain
  else .fault .unconfigured

/-- DIGITVAL (R157). -/
def execDigitval (segs : Segs) (s : State) : Host.Outcome State Fault Refusal :=
  .next (ret (.number (digitVal segs)) s)

/-- ENCSEG (R158) of a register of PTYPE SEG. -/
def execEncseg (r c : Nat) (flush : Bool) (s : State) : Host.Outcome State Fault Refusal := segPanelFrame r c flush s

/-- ENCODE (R159): the selection by PTYPE, with the selected encoder's own domain. -/
def execEncode (r c : Nat) (flush : Bool) (s : State) : Host.Outcome State Fault Refusal :=
  match s.cfg.ptype with
  | .a => dotPanelFrame .a encA r c flush s
  | .b => dotPanelFrame .b encB r c flush s
  | .seg => segPanelFrame r c flush s

end Sys2Proof.Machine
end

