-- ==== Sys2Proof/Machine/SegSteps.lean ====
section
/-! DEFINITION. The meanings of the STEP rows of 43_segment_display.md (R210 to R215). -/

namespace Sys2Proof.Machine

/-- SEGGEOM (R210). -/
def execSeggeom (s : State) : Host.Outcome State Fault Refusal :=
  if s.cfgd then .next (ret (.segGeom (segGeomOf s.cfg)) s) else .fault .unconfigured

/-- SEGPREP (R211) of a frame VALIDATE accepts. -/
def execSegprep (frame : Frame) (s : State) : Host.Outcome State Fault Refusal :=
  if s.cfgd then
    if validateFrame s.cfg frame = none then .next (ret (.subFrames (segPrep s.cfg frame)) s)
    else .refused .frameNotValidated
  else .fault .unconfigured

/-- SEGFP (R212): the joint fingerprint, vertical first. -/
def execSegfp (subV subH : Frame) (s : State) : Host.Outcome State Fault Refusal :=
  if frameOk subV && frameOk subH then .next (ret (.digest (fingerprint [subV, subH])) s)
  else .refused .outsideDomain

/-- SEGSLICE (R213): the two regions of one panel. -/
def execSegslice (gv gh : Grid) (r c : Nat) (s : State) : Host.Outcome State Fault Refusal :=
  if s.cfgd then
    if sliceOk gv r c (2 * s.cfg.ph) (2 * s.cfg.pw) && sliceOk gh r c (3 * s.cfg.ph) s.cfg.pw then
      .next (ret (.grids (segSliceV s.cfg gv r c) (segSliceH s.cfg gh r c)) s)
    else .refused .outsideDomain
  else .fault .unconfigured

/-- SEGFANOUT (R214) of a VH x VW and an HH x HW grid (rows by columns). -/
def execSegfanout (gv gh : Grid) (flush : Bool) (s : State) : Host.Outcome State Fault Refusal :=
  if s.cfgd then
    if s.cfg.ptype ≠ .seg then .refused .wrongPanelType
    else if hasSize gv (segGeomOf s.cfg).vh (segGeomOf s.cfg).vw && hasSize gh (segGeomOf s.cfg).hh (segGeomOf s.cfg).hw
    then .next (ret .nothing (fanoutSeg gv gh flush s))
    else .refused .gridSize
  else .fault .unconfigured

/-- SEGCORE (R215). -/
def execSegcore (frame : Frame) (flush : Bool) (now : Nat) (s : State) : Host.Outcome State Fault Refusal :=
  if s.cfgd then
    if s.cfg.ptype ≠ .seg then .refused .wrongPanelType
    else
      match segCore frame flush now s with
      | .error e => .next (raise e s)
      | .ok (st, t) => .next (ret (.status st) t)
  else .fault .unconfigured

end Sys2Proof.Machine
end

