-- ==== Sys2Proof/Machine/Wire.lean ====
section
/-! DEFINITION. The meanings of the five WIRE rows (R95 to R97): the row's fields laid out as the frame's bytes, as
the encoders of R153, R154 and R158 emit them. What a panel does with them is out of scope (R3; log 3). -/

namespace Sys2Proof.Machine

/-- TYPEA_FLUSH (R95): `0x80 0x83 addr data 0x8F`. -/
def execTypeaFlush (addr : Byte) (data : List Byte) (s : State) : Host.Outcome State Fault Refusal :=
  if data.isEmpty then .refused .outsideDomain else .next (ret (.bytes (typeAFrame true addr data)) s)

/-- TYPEA_BUFFER (R95): `0x80 0x84 addr data 0x8F`. -/
def execTypeaBuffer (addr : Byte) (data : List Byte) (s : State) : Host.Outcome State Fault Refusal :=
  if data.isEmpty then .refused .outsideDomain else .next (ret (.bytes (typeAFrame false addr data)) s)

/-- TYPEB (R96): `0x02`, the characters of address, length and data, `0x03`, the characters of the checksum. -/
def execTypeb (addr : Byte) (data : List Byte) (s : State) : Host.Outcome State Fault Refusal :=
  if data.isEmpty then .refused .outsideDomain else .next (ret (.bytes (typeBFrame addr data)) s)

/-- SEG_FLUSH (R97): the Type A frame whose data are the digit values. -/
def execSegFlush (addr : Byte) (digits : List (BitVec 7)) (s : State) : Host.Outcome State Fault Refusal :=
  if digits.isEmpty then .refused .outsideDomain
  else .next (ret (.bytes (typeAFrame true addr (digits.map digitByte))) s)

/-- SEG_BUFFER (R97). -/
def execSegBuffer (addr : Byte) (digits : List (BitVec 7)) (s : State) : Host.Outcome State Fault Refusal :=
  if digits.isEmpty then .refused .outsideDomain
  else .next (ret (.bytes (typeAFrame false addr (digits.map digitByte))) s)

end Sys2Proof.Machine
end

