-- ==== Sys2Proof/Machine/Dispatch.lean ====
section
/-! DEFINITION. The dispatch: one arm per constructor of Instr, one direct call of its meaning. -/

namespace Sys2Proof.Machine

/-- The meaning of every instruction. -/
def exec (i : Instr) (s : State) : Host.Outcome State Fault Refusal :=
  match i with
  | .reset => Sys2Proof.Machine.execReset s
  | .cfg rec => Sys2Proof.Machine.execCfg rec s
  | .send frame flush now => Sys2Proof.Machine.execSend frame flush now s
  | .devOpenDone d err => Sys2Proof.Machine.execDevOpenDone d err s
  | .devWriteDone d err => Sys2Proof.Machine.execDevWriteDone d err s
  | .drain now => Sys2Proof.Machine.execDrain now s
  | .typeaFlush addr data => Sys2Proof.Machine.execTypeaFlush addr data s
  | .typeaBuffer addr data => Sys2Proof.Machine.execTypeaBuffer addr data s
  | .typeb addr data => Sys2Proof.Machine.execTypeb addr data s
  | .segFlush addr digits => Sys2Proof.Machine.execSegFlush addr digits s
  | .segBuffer addr digits => Sys2Proof.Machine.execSegBuffer addr digits s
  | .geom => Sys2Proof.Machine.execGeom s
  | .validate frame => Sys2Proof.Machine.execValidate frame s
  | .dedup frame => Sys2Proof.Machine.execDedup frame s
  | .prep frame => Sys2Proof.Machine.execPrep frame s
  | .slice g r c th tw => Sys2Proof.Machine.execSlice g r c th tw s
  | .fanout g flush => Sys2Proof.Machine.execFanout g flush s
  | .record fp now => Sys2Proof.Machine.execRecord fp now s
  | .dotcore frame flush now => Sys2Proof.Machine.execDotcore frame flush now s
  | .seggeom => Sys2Proof.Machine.execSeggeom s
  | .segprep frame => Sys2Proof.Machine.execSegprep frame s
  | .segfp subV subH => Sys2Proof.Machine.execSegfp subV subH s
  | .segslice gv gh r c => Sys2Proof.Machine.execSegslice gv gh r c s
  | .segfanout gv gh flush => Sys2Proof.Machine.execSegfanout gv gh flush s
  | .segcore frame flush now => Sys2Proof.Machine.execSegcore frame flush now s
  | .checkcfg rec => Sys2Proof.Machine.execCheckcfg rec s
  | .buildpanels => Sys2Proof.Machine.execBuildpanels s
  | .beginopen => Sys2Proof.Machine.execBeginopen s
  | .enqueue frame flush => Sys2Proof.Machine.execEnqueue frame flush s
  | .rot90 g => Sys2Proof.Machine.execRot90 g s
  | .rotate g degrees => Sys2Proof.Machine.execRotate g degrees s
  | .mirror g => Sys2Proof.Machine.execMirror g s
  | .invert g => Sys2Proof.Machine.execInvert g s
  | .orient g => Sys2Proof.Machine.execOrient g s
  | .lumabit r g b => Sys2Proof.Machine.execLumabit r g b s
  | .rgba2bin buf w h => Sys2Proof.Machine.execRgba2bin buf w h s
  | .resize buf w h w2 h2 => Sys2Proof.Machine.execResize buf w h w2 h2 s
  | .resizeg g w2 h2 => Sys2Proof.Machine.execResizeg g w2 h2 s
  | .packbits g axis order => Sys2Proof.Machine.execPackbits g axis order s
  | .bitrev8 v => Sys2Proof.Machine.execBitrev8 v s
  | .fprint frames => Sys2Proof.Machine.execFprint frames s
  | .flat frame => Sys2Proof.Machine.execFlat frame s
  | .contenteq a b => Sys2Proof.Machine.execContenteq a b s
  | .setcontent r c g => Sys2Proof.Machine.execSetcontent r c g s
  | .hexexpand x => Sys2Proof.Machine.execHexexpand x s
  | .chksum command => Sys2Proof.Machine.execChksum command s
  | .enca r c flush => Sys2Proof.Machine.execEnca r c flush s
  | .encb r c flush => Sys2Proof.Machine.execEncb r c flush s
  | .setvert r c v => Sys2Proof.Machine.execSetvert r c v s
  | .sethoriz r c h => Sys2Proof.Machine.execSethoriz r c h s
  | .digitval x => Sys2Proof.Machine.execDigitval x s
  | .encseg r c flush => Sys2Proof.Machine.execEncseg r c flush s
  | .encode r c flush => Sys2Proof.Machine.execEncode r c flush s

end Sys2Proof.Machine
end

