-- ==== Sys2Proof/Machine/Step.lean ====
section
/-! DEFINITION. The step: the next operation of the schedule is presented, decoded and run to completion (R68, R236);
an op code outside R91 raises E_ILLEGAL_OP (R100 (a)); when the schedule is empty the drain sequencer takes DRAIN if it
is enabled (R232, R236; log 18), and otherwise the block is idle and holds its state (R266; log 19). -/

namespace Sys2Proof.Machine

/-- One step of the FDE. -/
def step (s : State) : Host.Outcome State Fault Refusal :=
  match s.schedule with
  | [] => if drainEnabled s then exec (.drain (selfDrainTime s)) (selfDrainState s) else .next s
  | c :: rest =>
    match decode s.cfg.ptype c with
    | .ok i => exec i (present rest (nowOf i) s)
    | .error (.illegalOp op) => .next (raise (.illegalOp op) (present rest 0 s))
    | .error e => .refused (.malformedCode e)

/-- The state whose next step runs the table row whose bits are `w` (log 4): its code is put first in the
schedule. -/
def State.withFetchWord (s : State) (nbits w : Nat) : State :=
  match tableCode nbits w with
  | some c => { s with schedule := c :: s.schedule }
  | none => s

end Sys2Proof.Machine
end

