-- ==== Sys2Proof/Safety.lean ====
section
/-! DEFINITION. What counts as a good state and a good dispatch, in the terms the statements use: the invariant of every
reachable state, the effect of a fan-out in closed form, the records as R92 to R94 word them, the checks as R226 words them,
and the trace of one step. -/

namespace Sys2Proof.Machine

/-! ## The invariant -/

/-- A configuration record that CHECKCFG lets pass (R21's legal values, R226). -/
structure CfgLegal (c : CfgRegs) : Prop where
  pw_pos : 1 ≤ c.pw
  ph_pos : 1 ≤ c.ph
  ph_dot : c.ptype ≠ .seg → c.ph ≤ 8
  rows_eq : c.layout.length = c.rows
  rows_pos : 1 ≤ c.rows
  cols_eq : ∀ row ∈ c.layout, row.length = c.cols
  cols_pos : 1 ≤ c.cols
  ndev_eq : c.devAddr.length = c.ndev
  ndev_pos : 1 ≤ c.ndev
  all_alone : 1 < c.ndev → DevAddr.all ∉ c.devAddr

/-- A panel register of the configured variant and size (R23, R24). -/
def panelShaped (c : CfgRegs) (p : Panel) : Prop :=
  match p with
  | .dot g => c.ptype ≠ .seg ∧ hasSize g c.ph c.pw = true
  | .seg digits => c.ptype = .seg ∧ digits.length = c.ph ∧ ∀ row ∈ digits, row.length = c.pw

/-- A rate warning (R250, code 49). -/
def isRate (w : Warning) : Bool :=
  match w with
  | .rate _ => true
  | .transportOpen _ => false
  | .transportWrite _ => false
  | .transportClose _ => false
  | .queueFull => false
  | .drainValidation _ => false

/-- What holds of every reachable state with CFGD = 1. -/
structure Configured (s : State) : Prop where
  /-- The record is legal (R226). -/
  legal : CfgLegal s.cfg
  /-- A configured block is never seen in Disconnected (R225, R261). -/
  opened : s.conn ≠ .disconnected
  /-- One register for each layout cell, of the configured variant and size (R23, R24). -/
  panel_rows : s.panels.length = s.cfg.rows
  panel_cols : ∀ row ∈ s.panels, row.length = s.cfg.cols ∧ ∀ p ∈ row, panelShaped s.cfg p
  /-- One DEV_DONE and one DEV_OPEN bit for each device (R28). -/
  done_len : s.devDone.length = s.cfg.ndev
  open_len : s.devOpen.length = s.cfg.ndev
  /-- An open device has completed its open attempt (R28). -/
  open_done : ∀ d : Nat, s.devOpen[d]? = some true → s.devDone[d]? = some true
  /-- The join (R230): Connected exactly when every open attempt has completed. -/
  joined : s.conn = .connected ↔ allDone s = true
  /-- Q holds at most MAXQ entries (R30). -/
  queue_bound : s.q.length ≤ s.cfg.maxq
  /-- LAST_FP and LAST_TS are none together (R29). -/
  recorded : s.lastFp.isSome = s.lastTs.isSome
  /-- Nothing is sent before Connected (R187, R232). -/
  unsent : s.conn ≠ .connected → s.lastFp = none ∧ s.out = []
  /-- Writes go to configured devices (R185). -/
  write_dev : ∀ w ∈ s.out, w.dev < s.cfg.ndev
  /-- Every device was asked to open once, in list order (R228). -/
  asked : s.openReq = List.range s.cfg.ndev
  /-- W_QUEUE_FULL was reported exactly when its latch is set, and once (R26, R231). -/
  overflow_once : s.warnLog.count .queueFull = if s.ovfWarned then 1 else 0
  /-- W_RATE was reported exactly when its latch is set, and once (R26, R186). -/
  rate_once : s.warnLog.countP isRate = if s.rateWarned then 1 else 0

/-- What holds of every reachable state with CFGD = 0 (R32; the record's values are log 9's, R32 leaves them
unspecified). -/
structure Unconfigured (s : State) : Prop where
  cfg : s.cfg = resetCfg
  panels : s.panels = []
  conn : s.conn = .disconnected
  devDone : s.devDone = []
  devOpen : s.devOpen = []
  q : s.q = []
  lastFp : s.lastFp = none
  lastTs : s.lastTs = none
  ovfWarned : s.ovfWarned = false
  rateWarned : s.rateWarned = false
  out : s.out = []
  openReq : s.openReq = []
  warnLog : s.warnLog = []

/-- The invariant. -/
def Inv (s : State) : Prop := (s.cfgd = true → Configured s) ∧ (s.cfgd = false → Unconfigured s)

/-! ## A fan-out in closed form (R185, R214) -/

/-- Device `d`'s payload: the frames of the cells it serves, in row-major order. -/
def payloadOf (c : CfgRegs) (frameOf : Nat → Nat → List Byte) (d : Nat) : List Byte :=
  (cells c).flatMap fun cell =>
    if serves (devAddrAt c d) (addrAt c cell.1 cell.2) then frameOf cell.1 cell.2 else []

/-- Some configured device serves the layout cell `(r, col)` (R67). -/
def servedBy (c : CfgRegs) (r col : Nat) : Bool :=
  r < c.rows && col < c.cols && (List.range c.ndev).any fun d => serves (devAddrAt c d) (addrAt c r col)

/-- `t` is `s` after a fan-out that gives the cell `(r, c)` the register content `panelOf r c` and the frame
`frameOf r c`: one write per device in list order, the served registers replaced, nothing else changed. -/
structure FannedOut (s t : State) (frameOf : Nat → Nat → List Byte) (panelOf : Nat → Nat → Panel) : Prop where
  out : t.out = s.out ++ (List.range s.cfg.ndev).map fun d => ⟨d, payloadOf s.cfg frameOf d⟩
  served : ∀ r c, servedBy s.cfg r c = true → getPanel t r c = some (panelOf r c)
  unserved : ∀ r c, servedBy s.cfg r c = false → getPanel t r c = getPanel s r c
  rest : t = { s with out := t.out, panels := t.panels }

/-- The register FANOUT leaves in a served cell: its slice of the device grid (R185). -/
def dotPanel (c : CfgRegs) (g : Grid) (r col : Nat) : Panel := .dot (sliceGrid g r col c.ph c.pw)

/-- The frame FANOUT sends for a served cell (R185, R159). -/
def dotFrame (c : CfgRegs) (g : Grid) (flush : Bool) (r col : Nat) : List Byte :=
  match c.ptype with
  | .a => encA (addrAt c r col) (sliceGrid g r col c.ph c.pw) flush
  | .b => encB (addrAt c r col) (sliceGrid g r col c.ph c.pw) flush
  | .seg => []

/-- The digits SEGFANOUT leaves in a served cell: all seven segments from the two slices (R155, R156, R214). -/
def segDigits (c : CfgRegs) (gv gh : Grid) (r col : Nat) : List (List Segs) :=
  let v := segSliceV c gv r col
  let h := segSliceH c gh r col
  tabulate c.ph c.pw fun dy dx =>
    { s0 := pixel h (3 * dy + 1) dx, s1 := pixel v (2 * dy) (2 * dx), s2 := pixel v (2 * dy + 1) (2 * dx),
      s3 := pixel h (3 * dy + 2) dx, s4 := pixel v (2 * dy + 1) (2 * dx + 1), s5 := pixel v (2 * dy) (2 * dx + 1),
      s6 := pixel h (3 * dy) dx }

/-! ## The records, as R92 to R94 word them -/

/-- The field of an option: the given value, or left out (R92: "Omitted options take the defaults"). -/
inductive OptionReads {α : Type} (field : α → Field) : Field → Option α → Prop
  | given (v : α) : OptionReads field (field v) (some v)
  | leftOut : OptionReads field .omitted none

/-- The operation that a record's op code and fields spell: R91's op codes, each with the fields of R92 (CFG), R93 (SEND) or
R94 (the events, RESET and DRAIN), in order. -/
inductive RecordReads : Byte → List Field → Instr → Prop
  | reset : RecordReads 0x00 [] .reset
  | cfg {rot mir inv maxq : Field} (r : CfgRecord) (rotReads : OptionReads Field.nat rot r.rot)
      (mirReads : OptionReads Field.flag mir r.mir) (invReads : OptionReads Field.flag inv r.inv)
      (maxqReads : OptionReads Field.nat maxq r.maxq) :
      RecordReads 0x01
        [rot, mir, inv, .ptype r.ptype, .nat r.pw, .nat r.ph, .nat r.mini, maxq, .layout r.layout, .devices r.devices]
        (.cfg r)
  | send (f : Frame) (flush : Bool) (now : Nat) :
      RecordReads 0x02 [.frame f, .flag flush, .nat now] (.send f flush now)
  /-- "`flush` is a boolean, default `true`" (R93). -/
  | sendDefault (f : Frame) (now : Nat) : RecordReads 0x02 [.frame f, .omitted, .nat now] (.send f true now)
  | devOpenDone (d : Nat) (err : Bool) : RecordReads 0x10 [.nat d, .flag err] (.devOpenDone d err)
  | devWriteDone (d : Nat) (err : Bool) : RecordReads 0x11 [.nat d, .flag err] (.devWriteDone d err)
  | drain (now : Nat) : RecordReads 0x20 [.nat now] (.drain now)

/-! ## The checks of CHECKCFG, as R226 words them -/

/-- Check 1: "LAYOUT = [] or LAYOUT[0] = []". -/
def emptyLayout (r : CfgRecord) : Prop := r.layout = [] ∨ r.layout.head? = some []

/-- Check 2: "some row of LAYOUT has a length != len(LAYOUT[0])". -/
def raggedLayout (r : CfgRecord) : Prop := ∃ first row, r.layout.head? = some first ∧ row ∈ r.layout ∧
  row.length ≠ first.length

/-- Check 4's condition on device `d`: its descriptor is not ok. -/
def badDescriptor (r : CfgRecord) (d : Nat) : Prop := ∃ e, r.devices[d]? = some e ∧ e.ok = false

/-- Check 5's condition on device `d`: one of several devices, and no address list. -/
def missingAddresses (r : CfgRecord) (d : Nat) : Prop :=
  1 < r.devices.length ∧ ∃ e, r.devices[d]? = some e ∧ e.addrs = none

/-- Check 6. An omitted ROT is the default 0 (R4). -/
def badOption (r : CfgRecord) : Prop :=
  (∃ degrees, r.rot = some degrees ∧ degrees ∉ [0, 90, 180, 270]) ∨ r.ptype = .other ∨ r.pw < 1 ∨ r.ph < 1 ∨
    ((r.ptype = .known .a ∨ r.ptype = .known .b) ∧ 8 < r.ph) ∨ ∃ row ∈ r.layout, ∃ a ∈ row, a < 0 ∨ 255 < a

/-- The registers R226 derives from a record whose checks pass: the record's own values, the defaults of R4, ROWS, COLS,
NDEV, and each device's address set. -/
structure RegistersOf (r : CfgRecord) (c : CfgRegs) : Prop where
  rot : rotDegrees c.rot = r.rot.getD 0
  mir : c.mir = r.mir.getD false
  inv : c.inv = r.inv.getD false
  ptype : r.ptype = .known c.ptype
  pw : c.pw = r.pw
  ph : c.ph = r.ph
  mini : c.mini = r.mini
  maxq : c.maxq = r.maxq.getD 100
  rows : c.rows = r.layout.length
  cols : ∀ row ∈ r.layout, row.length = c.cols
  layout : (c.layout.map fun row => row.map fun a => Int.ofNat a.toNat) = r.layout
  ndev : c.ndev = r.devices.length
  devAddr : ∀ (d : Nat) (e : DeviceEntry), r.devices[d]? = some e → ∀ a : Byte,
    serves (devAddrAt c d) a = true ↔ e.addrs = none ∨ ∃ addrs, e.addrs = some addrs ∧ Int.ofNat a.toNat ∈ addrs

/-! ## The trace of one step -/

/-- The next operation is RESET. -/
def resetNext (s : State) : Prop := ∃ rest, s.schedule = .record 0x00 [] :: rest

end Sys2Proof.Machine
end

