-- ==== Sys2Proof/Certificates/Slice0/Obligations.lean ====
section
/-! DEFINITION. The statements for the provers. Each docstring names the rule of spec/ it formalises; a clause that rests
on a choice of the model names the log entry (notes/assumptions/<n>.md). A statement says what the next state is in
full, so it carries its frame: every field it does not name is as before. Three conventions of the model stand in most of
them: what a STEP, FN or WIRE row returns stands in VALUE (log 5), the RESULT port is a field (log 6), and the operations to
come are the schedule (log 1). -/

open Sys2Proof Sys2Proof.Machine

/-! ## Encodings -/

/-- Decode and encode agree on every row that has an encoding, at every operand value (30_encoding.md sections 1 to 3). A
SEND record without its `flush` decodes too, to `flush = true` (R93, R101; log 33), although the encoder always writes the
flag. A record decodes exactly when it has the fields of R92 to R94, and then to the operation they spell. The typed form
of a record's fields is the model's (log 2). -/
def Obligations.DecodeEncodeRoundTrip : Prop :=
  (∀ (pt : PanelType) (i : Instr) (c : Code), wf i = true → familyAgrees pt i = true → encode i = some c →
      decode pt c = .ok i) ∧
    (∀ (pt : PanelType) (f : Frame) (now : Nat),
      decode pt (.record 0x02 [.frame f, .omitted, .nat now]) = .ok (.send f true now)) ∧
    ∀ (pt : PanelType) (op : Byte) (fields : List Field) (i : Instr),
      decode pt (.record op fields) = .ok i ↔ RecordReads op fields i

/-- A wire frame has one reading and one spelling: what decodes is well-formed and is encoded by the very bytes it was
read from (R95 to R98, R102). -/
def Obligations.WireFrameReadingIsUnique : Prop :=
  ∀ (pt : PanelType) (bytes : List Byte) (i : Instr), decode pt (.wire bytes) = .ok i →
    wf i = true ∧ familyAgrees pt i = true ∧ encode i = some (.wire bytes)

/-- Words written out from R91, R95, R96 and R97 decode to what they stand for (vectors A1, B2, G5, P1). -/
def Obligations.SampleWordsDecode : Prop :=
  decode .a (.record 0x00 []) = .ok .reset ∧
    decode .a (.record 0x11 [.nat 3, .flag true]) = .ok (.devWriteDone 3 true) ∧
    decode .a (.wire [0x80, 0x83, 0x05, 0x55, 0x08, 0x01, 0x8F]) = .ok (.typeaFlush 5 [0x55, 0x08, 0x01]) ∧
    decode .seg (.wire [0x80, 0x84, 0x07, 0x6F, 0x30, 0x8F]) = .ok (.segBuffer 7 [0x6F, 0x30]) ∧
    decode .b
        (.wire [0x02, 0x30, 0x35, 0x30, 0x33, 0x35, 0x35, 0x30, 0x38, 0x30, 0x31, 0x03, 0x30, 0x37]) =
      .ok (.typeb 5 [0x55, 0x08, 0x01])

/-! ## The step -/

/-- A step runs the decoded instruction: when the code at the head of the schedule decodes to `i`, the step is `exec i`
at the state with that entry gone and TIME not before the operation's `now`. The schedule is the model's (log 1). -/
def Obligations.StepRunsDecodedInstruction : Prop :=
  ∀ (s : State) (c : Code) (rest : List Code) (i : Instr), s.schedule = c :: rest → decode s.cfg.ptype c = .ok i →
    step s = exec i { s with schedule := rest, time := max s.time (nowOf i) }

/-- With nothing scheduled, the sequencer takes DRAIN exactly when R232 enables it, at a free time not before any
earlier operation's (log 18); otherwise the block holds its state (R266, log 19). The model's choice. -/
def Obligations.StepWithEmptySchedule : Prop :=
  ∀ s : State, s.schedule = [] →
    (s.cfgd = true ∧ s.conn = .connected ∧ s.q ≠ [] →
        ∃ now, s.time ≤ now ∧ step s = exec (.drain now) { s with time := now, freeCtr := s.freeCtr + 1 }) ∧
      (¬(s.cfgd = true ∧ s.conn = .connected ∧ s.q ≠ []) → step s = .next s)

/-- R232 (a): with nothing scheduled, a connected block empties its queue in as many steps as it has entries, and then
DRAIN is not enabled again. It rests on log 18. -/
def Obligations.EmptyScheduleDrainsTheQueue : Prop :=
  ∀ s : State, s.cfgd = true → s.conn = .connected → s.schedule = [] →
    ∃ t, Host.Core.run core s.q.length s = .next t ∧ t.q = [] ∧ t.conn = .connected ∧ t.cfg = s.cfg ∧ step t = .next t

/-- R267: each of the three protocol errors refuses its operation and changes no state. (The RESULT field is log 6's; that
the illegal record leaves the schedule is log 1's.) -/
def Obligations.ProtocolErrorsChangeNoState : Prop :=
  (∀ (s : State) (f : Frame) (flush : Bool) (now : Nat), s.cfgd = false →
      exec (.send f flush now) s = .next { s with result := some (.error .notConfigured) }) ∧
    (∀ (s : State) (r : CfgRecord), s.cfgd = true →
      exec (.cfg r) s = .next { s with result := some (.error .alreadyConfigured) }) ∧
    ∀ (s : State) (op : Byte) (fields : List Field) (rest : List Code), s.schedule = .record op fields :: rest →
      op ∉ [0x00, 0x01, 0x02, 0x10, 0x11, 0x20] →
      step s = .next { s with schedule := rest, result := some (.error (.illegalOp op)) }

/-- RESET (R290) from every state: what R32 gives a reset value has it, the traces are empty, and the record and the
registers that "cease to exist" are as the model's log 9 says; the RESULT port and VALUE are as at reset (log 30); the
model's schedule, TIME and counter go on (log 26). -/
def Obligations.ResetReturnsToUnconfigured : Prop :=
  ∀ s : State, ∃ t, exec .reset s = .next t ∧ t.cfgd = false ∧ t.conn = .disconnected ∧ t.q = [] ∧ t.lastFp = none ∧
    t.lastTs = none ∧ t.ovfWarned = false ∧ t.rateWarned = false ∧ t.panels = [] ∧ t.devDone = [] ∧ t.devOpen = [] ∧
    t.out = [] ∧ t.openReq = [] ∧ t.warnLog = [] ∧ t.cfg = State.reset.cfg ∧ t.result = none ∧ t.value = .nothing ∧
    t.schedule = s.schedule ∧ t.time = s.time ∧ t.freeCtr = s.freeCtr

/-- The reset state meets the invariant of Safety.lean (R32; the record's values are log 9's). -/
def Obligations.ResetStateMeetsInvariant : Prop := Inv State.reset

/-! ## What every step keeps -/

/-- Every step keeps the invariant (the rules its fields name: R21 to R31, R180, R225 to R232). That an unconfigured state
holds the reset values of the configuration record, which R32 leaves unspecified, is the model's choice (log 9, unsafe). -/
def Obligations.StepKeepsInvariant : Prop := ∀ s t : State, Inv s → step s = .next t → Inv t

/-- R21: the record "is never written afterwards": a step from a configured state to a configured one keeps it. -/
def Obligations.ConfigurationNeverRewritten : Prop :=
  ∀ s t : State, step s = .next t → s.cfgd = true → t.cfgd = true → t.cfg = s.cfg

/-- R235: CONN moves only along Disconnected, Connecting, Connected; only RESET leaves Connected. -/
def Obligations.ConnectionFollowsItsArrows : Prop :=
  ∀ s t : State, Inv s → step s = .next t →
    t.conn = s.conn ∨ (s.conn = .disconnected ∧ t.conn = .connecting) ∨
      (s.conn = .connecting ∧ t.conn = .connected) ∨ (resetNext s ∧ t.conn = .disconnected)

/-- R26, R259: once set, a latch stays set until RESET. -/
def Obligations.LatchesClearedOnlyByReset : Prop :=
  ∀ s t : State, Inv s → step s = .next t → ¬resetNext s →
    (s.ovfWarned = true → t.ovfWarned = true) ∧ (s.rateWarned = true → t.rateWarned = true)

/-- R31, R257 (d): until RESET the traces only grow; a step reports at most one warning. -/
def Obligations.TracesOnlyGrow : Prop :=
  ∀ s t : State, step s = .next t → ¬resetNext s →
    s.out <+: t.out ∧ s.openReq <+: t.openReq ∧ (t.warnLog = s.warnLog ∨ ∃ w, t.warnLog = s.warnLog ++ [w])

/-- R30, R68 (2): a step leaves the queue alone, appends one entry while there is room and the block is not connected,
or takes the oldest entry once it is. -/
def Obligations.QueueMovesFirstInFirstOut : Prop :=
  ∀ s t : State, Inv s → step s = .next t → ¬resetNext s →
    t.q = s.q ∨ (∃ e, t.q = s.q ++ [e] ∧ s.q.length < s.cfg.maxq ∧ s.conn = .connecting) ∨
      ∃ e, s.q = e :: t.q ∧ s.conn = .connected

/-- R65, R68 (3): a step writes nothing, or writes one byte sequence to every device, in list order. -/
def Obligations.OneWritePerDeviceInOrder : Prop :=
  ∀ s t : State, step s = .next t → ¬resetNext s →
    ∃ new : List Write, t.out = s.out ++ new ∧ (new = [] ∨ new.map Write.dev = List.range s.cfg.ndev)

/-! ## Construction -/

/-- CFG (R225, R227, R228): refused while configured; on the first failing check nothing but RESULT changes; else the
Display is constructed, every device asked to open, and S_OK returned. The panels' content is unspecified (log 8), the
counter the model's own. -/
def Obligations.CfgConstructsDisplay : Prop :=
  ∀ (s : State) (r : CfgRecord),
    (s.cfgd = true → exec (.cfg r) s = .next { s with result := some (.error .alreadyConfigured) }) ∧
      (∀ e, s.cfgd = false → checkCfg r = .error e → exec (.cfg r) s = .next { s with result := some (.error e) }) ∧
      ∀ c, s.cfgd = false → checkCfg r = .ok c →
        ∃ panels : List (List Panel),
          panels.length = c.rows ∧ (∀ row ∈ panels, row.length = c.cols ∧ ∀ p ∈ row, panelShaped c p) ∧
            exec (.cfg r) s =
              .next
                { s with
                  cfgd := true, cfg := c, panels := panels, conn := .connecting,
                  devDone := List.replicate c.ndev false, devOpen := List.replicate c.ndev false, q := [],
                  lastFp := none, lastTs := none, ovfWarned := false, rateWarned := false,
                  openReq := s.openReq ++ List.range c.ndev, result := some (.status .ok), freeCtr := s.freeCtr + 1 }

/-- CHECKCFG (R226): the first failing check decides the error; when none fails the registers are R226's with the defaults
of R4 for the options left out (log 23), and, as a consequence, legal. The error records a device index (R250); which
failing device's is free (log 16). -/
def Obligations.ConfigurationChecksInOrder : Prop :=
  ∀ (s : State) (r : CfgRecord),
    (emptyLayout r → exec (.checkcfg r) s = .next { s with result := some (.error .cfgEmptyLayout) }) ∧
      (¬emptyLayout r → raggedLayout r →
        exec (.checkcfg r) s = .next { s with result := some (.error .cfgRaggedLayout) }) ∧
      (¬emptyLayout r → ¬raggedLayout r → r.devices = [] →
        exec (.checkcfg r) s = .next { s with result := some (.error .cfgEmptyDevices) }) ∧
      (¬emptyLayout r → ¬raggedLayout r → (∃ d, badDescriptor r d) →
        ∃ d, badDescriptor r d ∧
          exec (.checkcfg r) s = .next { s with result := some (.error (.cfgBadDescriptor d)) }) ∧
      (¬emptyLayout r → ¬raggedLayout r → (¬∃ d, badDescriptor r d) → (∃ d, missingAddresses r d) →
        ∃ d, missingAddresses r d ∧
          exec (.checkcfg r) s = .next { s with result := some (.error (.cfgBadDescriptor d)) }) ∧
      (¬emptyLayout r → ¬raggedLayout r → r.devices ≠ [] → (¬∃ d, badDescriptor r d) → (¬∃ d, missingAddresses r d) →
        badOption r → exec (.checkcfg r) s = .next { s with result := some (.error .cfgBadOption) }) ∧
      (¬emptyLayout r → ¬raggedLayout r → r.devices ≠ [] → (¬∃ d, badDescriptor r d) → (¬∃ d, missingAddresses r d) →
        ¬badOption r →
        ∃ c, checkCfg r = .ok c ∧ CfgLegal c ∧ RegistersOf r c ∧
          exec (.checkcfg r) s = .next { s with value := .regs c })

/-- BUILDPANELS (R227; the content is free, log 8) and BEGINOPEN (R228), run alone on a configured state. -/
def Obligations.PanelsCreatedAndOpensRequested : Prop :=
  ∀ s : State, s.cfgd = true →
    (∃ panels : List (List Panel),
        panels.length = s.cfg.rows ∧ (∀ row ∈ panels, row.length = s.cfg.cols ∧ ∀ p ∈ row, panelShaped s.cfg p) ∧
          exec .buildpanels s =
            .next { s with panels := panels, freeCtr := s.freeCtr + 1, value := .nothing }) ∧
      exec .beginopen s =
        .next { s with openReq := s.openReq ++ List.range s.cfg.ndev, conn := .connecting, value := .nothing }

/-! ## SEND -/

/-- SEND while not connected, and ENQUEUE (R231): queued unvalidated while there is room, else dropped with one warning
the first time. -/
def Obligations.SendBeforeConnectionIsQueued : Prop :=
  ∀ (s : State) (f : Frame) (flush : Bool) (now : Nat), s.cfgd = true →
    (s.q.length < s.cfg.maxq →
        (s.conn ≠ .connected →
            exec (.send f flush now) s =
              .next { s with q := s.q ++ [⟨f, flush⟩], result := some (.status .queued) }) ∧
          exec (.enqueue f flush) s = .next { s with q := s.q ++ [⟨f, flush⟩], value := .status .queued }) ∧
      (s.cfg.maxq ≤ s.q.length →
        (s.conn ≠ .connected →
            exec (.send f flush now) s =
              .next
                { s with
                  ovfWarned := true, warnLog := s.warnLog ++ (if s.ovfWarned then [] else [.queueFull]),
                  result := some (.status .dropped) }) ∧
          exec (.enqueue f flush) s =
            .next
              { s with
                ovfWarned := true, warnLog := s.warnLog ++ (if s.ovfWarned then [] else [.queueFull]),
                value := .status .dropped })

/-- VALIDATE (R181), alone and in a connected SEND: the tag and the shape decide; a failing call has no side
effect. -/
def Obligations.WrongShapesAreRejected : Prop :=
  ∀ (s : State) (f : Frame) (flush : Bool) (now : Nat), s.cfgd = true →
    let w := (geomOf s.cfg).width
    let h := (geomOf s.cfg).height
    let raised (e : Err) : Prop :=
      exec (.validate f) s = .next { s with result := some (.error e) } ∧
        (s.conn = .connected → exec (.send f flush now) s = .next { s with result := some (.error e) })
    match f with
    | .grid rows =>
      if rows.length = h ∧ ∀ row ∈ rows, row.length = w then exec (.validate f) s = .next { s with value := .nothing }
      else raised .valShape
    | .rgba bytes =>
      if bytes.length = w * h * 4 then exec (.validate f) s = .next { s with value := .nothing } else raised .valShape
    | .other => raised .valKind

/-- A dispatched SEND on a Display of DotPanels, and DOTCORE (R185, R187, R188): one write per device, its payload the
frames of the cells it serves, the served registers replaced by their slices, then RECORD; nothing else changes. -/
def Obligations.DispatchedSendFansOut : Prop :=
  ∀ (s : State) (f : Frame) (flush : Bool) (now : Nat), Inv s → s.cfgd = true → s.conn = .connected →
    s.cfg.ptype ≠ .seg → validateFrame s.cfg f = none → s.lastFp ≠ some (fingerprint [f]) →
    ∃ t, FannedOut s t (dotFrame s.cfg (prepGrid s.cfg f) flush) (dotPanel s.cfg (prepGrid s.cfg f)) ∧
      exec (.send f flush now) s = .next (answer .dispatched (recordSend (fingerprint [f]) now t)) ∧
      exec (.dotcore f flush now) s = .next (ret (.status .dispatched) (recordSend (fingerprint [f]) now t))

/-- A dispatched SEND on a SegmentDisplay, and SEGCORE (R187, R214, R215): as above with the two sub-frames; all seven
segments of every digit of a served register come from the current frame. -/
def Obligations.DispatchedSegmentSendFansOut : Prop :=
  ∀ (s : State) (f : Frame) (flush : Bool) (now : Nat), Inv s → s.cfgd = true → s.conn = .connected →
    s.cfg.ptype = .seg → validateFrame s.cfg f = none →
    let sub := segPrep s.cfg f
    s.lastFp ≠ some (fingerprint [sub.subV, sub.subH]) →
    ∃ t,
      FannedOut s t
          (fun r c => encSeg (addrAt s.cfg r c) (segDigits s.cfg sub.gv sub.gh r c) flush)
          (fun r c => .seg (segDigits s.cfg sub.gv sub.gh r c)) ∧
        exec (.send f flush now) s =
          .next (answer .dispatched (recordSend (fingerprint [sub.subV, sub.subH]) now t)) ∧
        exec (.segcore f flush now) s =
          .next (ret (.status .dispatched) (recordSend (fingerprint [sub.subV, sub.subH]) now t))

/-- FANOUT (R185) and SEGFANOUT (R214) run alone on grids of the device's sizes. -/
def Obligations.FanoutWritesServedPanels : Prop :=
  (∀ (s : State) (g : Grid) (flush : Bool), Inv s → s.cfgd = true → s.cfg.ptype ≠ .seg →
      hasSize g (geomOf s.cfg).devH (geomOf s.cfg).devW = true →
      ∃ t, FannedOut s t (dotFrame s.cfg g flush) (dotPanel s.cfg g) ∧
        exec (.fanout g flush) s = .next { t with value := .nothing }) ∧
    ∀ (s : State) (gv gh : Grid) (flush : Bool), Inv s → s.cfgd = true → s.cfg.ptype = .seg →
      hasSize gv (segGeomOf s.cfg).vh (segGeomOf s.cfg).vw = true →
      hasSize gh (segGeomOf s.cfg).hh (segGeomOf s.cfg).hw = true →
      ∃ t,
        FannedOut s t (fun r c => encSeg (addrAt s.cfg r c) (segDigits s.cfg gv gh r c) flush)
            (fun r c => .seg (segDigits s.cfg gv gh r c)) ∧
          exec (.segfanout gv gh flush) s = .next { t with value := .nothing }

/-- R99, R302: a payload is the plain concatenation of equally long frames, `PW + 4`, `2*PW + 8` or `PW*PH + 4` bytes
each: its length is that many bytes for every served cell. -/
def Obligations.PayloadLengthCountsServedCells : Prop :=
  ∀ (c : CfgRegs) (d : Nat) (flush : Bool),
    let served := ((cells c).filter fun cell => serves (devAddrAt c d) (addrAt c cell.1 cell.2)).length
    (∀ g, 1 ≤ c.ph → c.ptype = .a → (payloadOf c (dotFrame c g flush) d).length = served * (c.pw + 4)) ∧
      (∀ g, 1 ≤ c.ph → c.ptype = .b → (payloadOf c (dotFrame c g flush) d).length = served * (2 * c.pw + 8)) ∧
      ∀ gv gh,
        (payloadOf c (fun r col => encSeg (addrAt c r col) (segDigits c gv gh r col) flush) d).length =
          served * (c.pw * c.ph + 4)

/-- DEDUP's effect on a send (R182, R188, R215): a valid frame whose fingerprint is LAST_FP changes nothing but the
status. -/
def Obligations.DuplicateFrameIsNotDispatched : Prop :=
  (∀ (s : State) (f : Frame) (flush : Bool) (now : Nat), s.cfgd = true → s.cfg.ptype ≠ .seg →
      validateFrame s.cfg f = none → s.lastFp = some (fingerprint [f]) →
      (s.conn = .connected → exec (.send f flush now) s = .next { s with result := some (.status .duplicate) }) ∧
        exec (.dotcore f flush now) s = .next { s with value := .status .duplicate }) ∧
    ∀ (s : State) (f : Frame) (flush : Bool) (now : Nat), s.cfgd = true → s.cfg.ptype = .seg →
      validateFrame s.cfg f = none →
      s.lastFp = some (fingerprint [(segPrep s.cfg f).subV, (segPrep s.cfg f).subH]) →
      (s.conn = .connected → exec (.send f flush now) s = .next { s with result := some (.status .duplicate) }) ∧
        exec (.segcore f flush now) s = .next { s with value := .status .duplicate }

/-- R182, DOC0 §8: sending the same valid frame twice in a row dispatches at most once, whatever the second call's
`flush` and `now` (R295): the second changes nothing but the status. -/
def Obligations.SameFrameTwiceDispatchesOnce : Prop :=
  ∀ (s t : State) (f : Frame) (flush flush' : Bool) (now now' : Nat), s.cfgd = true → s.conn = .connected →
    validateFrame s.cfg f = none → exec (.send f flush now) s = .next t →
    exec (.send f flush' now') t = .next { t with result := some (.status .duplicate) }

/-- RECORD (R186), with `now` not before LAST_TS as the rule assumes. -/
def Obligations.RecordReportsRateOnce : Prop :=
  ∀ (s : State) (fp : Digest) (now : Nat), s.cfgd = true →
    (s.lastTs = none →
        exec (.record fp now) s = .next { s with lastFp := some fp, lastTs := some now, value := .nothing }) ∧
      (∀ t, s.lastTs = some t → t + s.cfg.mini ≤ now →
        exec (.record fp now) s = .next { s with lastFp := some fp, lastTs := some now, value := .nothing }) ∧
      (∀ t, s.lastTs = some t → t ≤ now → now < t + s.cfg.mini → s.rateWarned = true →
        exec (.record fp now) s = .next { s with lastFp := some fp, lastTs := some now, value := .nothing }) ∧
      ∀ t, s.lastTs = some t → t ≤ now → now < t + s.cfg.mini → s.rateWarned = false →
        exec (.record fp now) s =
          .next
            { s with
              lastFp := some fp, lastTs := some now, rateWarned := true, warnLog := s.warnLog ++ [.rate (now - t)],
              value := .nothing }

/-! ## Events and DRAIN -/

/-- DEV_OPEN_DONE and the join (R229, R230). -/
def Obligations.OpenCompletionJoins : Prop :=
  ∀ (s : State) (d : Nat) (err : Bool), Inv s →
    (s.cfgd = false ∨ s.cfg.ndev ≤ d ∨ doneAt s d = true → exec (.devOpenDone d err) s = .next s) ∧
      (s.cfgd = true → d < s.cfg.ndev → doneAt s d = false →
        exec (.devOpenDone d err) s =
          .next
            { s with
              devDone := s.devDone.set d true, devOpen := s.devOpen.set d (!err),
              warnLog := s.warnLog ++ (if err then [.transportOpen d] else []),
              conn := if ∀ e < s.cfg.ndev, e = d ∨ doneAt s e = true then .connected else s.conn })

/-- DEV_WRITE_DONE (R233): WARNLOG on an error of a configured device, nothing else ever. -/
def Obligations.WriteCompletionOnlyWarns : Prop :=
  ∀ (s : State) (d : Nat),
    exec (.devWriteDone d false) s = .next s ∧
      (s.cfgd = true → d < s.cfg.ndev →
        exec (.devWriteDone d true) s = .next { s with warnLog := s.warnLog ++ [.transportWrite d] }) ∧
      (s.cfgd = false ∨ s.cfg.ndev ≤ d → exec (.devWriteDone d true) s = .next s)

/-- DRAIN (R232): without effect unless enabled; else the oldest entry leaves Q and goes through the send path of a
connected SEND, a validation error becoming a warning; RESULT is left as it was (log 30). -/
def Obligations.DrainTakesTheOldestFrame : Prop :=
  ∀ (s : State) (now : Nat),
    (¬(s.cfgd = true ∧ s.conn = .connected ∧ s.q ≠ []) → exec (.drain now) s = .next s) ∧
      ∀ e rest, s.cfgd = true → s.conn = .connected → s.q = e :: rest →
        (∀ err, validateFrame s.cfg e.frame = some err →
            exec (.drain now) s = .next { s with q := rest, warnLog := s.warnLog ++ [.drainValidation err] }) ∧
          (validateFrame s.cfg e.frame = none →
            ∃ t, exec (.send e.frame e.flush now) { s with q := rest } = .next t ∧
              exec (.drain now) s = .next { t with result := s.result })

/-! ## Sub-steps that return a value -/

/-- GEOM (R180), and SEGGEOM (R210) for every PTYPE (log 32: R22 lists the sub-frame sizes for SEG only). -/
def Obligations.GeometryRegisterValues : Prop :=
  ∀ s : State, s.cfgd = true →
    let c := s.cfg
    let pw := if c.ptype = .seg then 2 * c.pw else c.pw
    let ph := if c.ptype = .seg then 3 * c.ph else c.ph
    let turned := c.rot = .r90 ∨ c.rot = .r270
    (turned →
        exec .geom s =
            .next { s with value := .geom ⟨pw, ph, pw * c.cols, ph * c.rows, ph * c.rows, pw * c.cols⟩ } ∧
          exec .seggeom s =
            .next
              { s with
                value :=
                  .segGeom
                    ⟨2 * c.pw * c.cols, 2 * c.ph * c.rows, c.pw * c.cols, 3 * c.ph * c.rows, 2 * c.ph * c.rows,
                      2 * c.pw * c.cols, 3 * c.ph * c.rows, c.pw * c.cols⟩ }) ∧
      (¬turned →
        exec .geom s =
            .next { s with value := .geom ⟨pw, ph, pw * c.cols, ph * c.rows, pw * c.cols, ph * c.rows⟩ } ∧
          exec .seggeom s =
            .next
              { s with
                value :=
                  .segGeom
                    ⟨2 * c.pw * c.cols, 2 * c.ph * c.rows, c.pw * c.cols, 3 * c.ph * c.rows, 2 * c.pw * c.cols,
                      2 * c.ph * c.rows, c.pw * c.cols, 3 * c.ph * c.rows⟩ })

/-- DEDUP (R182) and SEGFP (R212). -/
def Obligations.FingerprintsOfFrames : Prop :=
  (∀ (s : State) (f : Frame), frameOk f = true →
      ∃ dup, exec (.dedup f) s = .next { s with value := .dedup (Config.fp (flatten f)) dup } ∧
        (dup = true ↔ s.lastFp = some (Config.fp (flatten f)))) ∧
    ∀ (s : State) (v h : Frame), frameOk v = true → frameOk h = true →
      exec (.segfp v h) s = .next { s with value := .digest (Config.fp (flatten v ++ flatten h)) }

/-- PREP (R183): the frame (thresholded if RGBA) oriented, a grid of DEVH rows and DEVW columns, for every PTYPE
(log 32). -/
def Obligations.PrepGivesTheDeviceGrid : Prop :=
  ∀ (s : State) (f : Frame), s.cfgd = true → CfgLegal s.cfg → validateFrame s.cfg f = none →
    ∃ g, hasSize g (geomOf s.cfg).devH (geomOf s.cfg).devW = true ∧ exec (.prep f) s = .next { s with value := .grid g } ∧
      (∀ rows, f = .grid rows → g = orient s.cfg rows) ∧
      ∀ bytes, f = .rgba bytes → g = orient s.cfg (rgbaToBinary bytes (geomOf s.cfg).width (geomOf s.cfg).height)

/-- SEGPREP (R211): both sub-frames come from the same source; the oriented ones have the aggregate sizes of R210. It
computes for every PTYPE (log 32). -/
def Obligations.SegPrepGivesTheSubFrames : Prop :=
  ∀ (s : State) (f : Frame), s.cfgd = true → CfgLegal s.cfg → validateFrame s.cfg f = none →
    let w := (geomOf s.cfg).width
    let h := (geomOf s.cfg).height
    let sg := segGeomOf s.cfg
    ∃ sub, exec (.segprep f) s = .next { s with value := .subFrames sub } ∧
      (s.cfg.ptype = .seg →
        hasSize sub.gv sg.vh sg.vw = true ∧ hasSize sub.gh sg.hh sg.hw = true) ∧
      (∀ g, f = .grid g →
        sub.subV = .grid (resizeGrid g sg.vwe sg.vhe) ∧ sub.subH = .grid (resizeGrid g sg.hwe sg.hhe) ∧
          sub.gv = orient s.cfg (resizeGrid g sg.vwe sg.vhe) ∧ sub.gh = orient s.cfg (resizeGrid g sg.hwe sg.hhe)) ∧
      ∀ b, f = .rgba b →
        sub.subV = .rgba (resize b w h sg.vwe sg.vhe) ∧ sub.subH = .rgba (resize b w h sg.hwe sg.hhe) ∧
          sub.gv = orient s.cfg (rgbaToBinary (resize b w h sg.vwe sg.vhe) sg.vwe sg.vhe) ∧
          sub.gh = orient s.cfg (rgbaToBinary (resize b w h sg.hwe sg.hhe) sg.hwe sg.hhe)

/-- SLICE (R184), and SEGSLICE (R213) for every PTYPE (log 32): the region's size and pixels. -/
def Obligations.SliceRegions : Prop :=
  (∀ (s : State) (g : Grid) (r c th tw : Nat), sliceOk g r c th tw = true →
      ∃ t, exec (.slice g r c th tw) s = .next { s with value := .grid t } ∧ hasSize t th tw = true ∧
        ∀ y < th, ∀ x < tw, pixel t y x = pixel g (r * th + y) (c * tw + x)) ∧
    ∀ (s : State) (gv gh : Grid) (r c : Nat), s.cfgd = true →
      sliceOk gv r c (2 * s.cfg.ph) (2 * s.cfg.pw) = true → sliceOk gh r c (3 * s.cfg.ph) s.cfg.pw = true →
      ∃ v h, exec (.segslice gv gh r c) s = .next { s with value := .grids v h } ∧
        hasSize v (2 * s.cfg.ph) (2 * s.cfg.pw) = true ∧ hasSize h (3 * s.cfg.ph) s.cfg.pw = true ∧
        (∀ y < 2 * s.cfg.ph, ∀ x < 2 * s.cfg.pw,
          pixel v y x = pixel gv (r * (2 * s.cfg.ph) + y) (c * (2 * s.cfg.pw) + x)) ∧
        ∀ y < 3 * s.cfg.ph, ∀ x < s.cfg.pw, pixel h y x = pixel gh (r * (3 * s.cfg.ph) + y) (c * s.cfg.pw + x)

/-! ## Frame utilities -/

/-- ROT90 (R120). -/
def Obligations.QuarterTurnPixels : Prop :=
  ∀ (s : State) (g : Grid), gridOk g = true →
    ∃ t, exec (.rot90 g) s = .next { s with value := .grid t } ∧ hasSize t (colsOf g) (rowsOf g) = true ∧
      ∀ i < colsOf g, ∀ j < rowsOf g, pixel t i j = pixel g (rowsOf g - 1 - j) i

/-- ROTATE (R121): the closed form of every quadrant (R121 marks them its own inference), four quarter turns the identity,
and the refusal of an angle that is no multiple of 90 (log 13). -/
def Obligations.RotateClosedForms : Prop :=
  ∀ (s : State) (g : Grid) (degrees : Int), gridOk g = true →
    (degrees % 90 ≠ 0 → exec (.rotate g degrees) s = .refused .rotationAngle) ∧
      (degrees % 90 = 0 →
        ∃ t, exec (.rotate g degrees) s = .next { s with value := .grid t } ∧
          (degrees % 360 = 0 → t = g) ∧
          (degrees % 360 = 90 →
            hasSize t (colsOf g) (rowsOf g) = true ∧
              ∀ i < colsOf g, ∀ j < rowsOf g, pixel t i j = pixel g (rowsOf g - 1 - j) i) ∧
          (degrees % 360 = 180 →
            hasSize t (rowsOf g) (colsOf g) = true ∧
              ∀ y < rowsOf g, ∀ x < colsOf g, pixel t y x = pixel g (rowsOf g - 1 - y) (colsOf g - 1 - x)) ∧
          (degrees % 360 = 270 →
            hasSize t (colsOf g) (rowsOf g) = true ∧
              ∀ i < colsOf g, ∀ j < rowsOf g, pixel t i j = pixel g j (colsOf g - 1 - i))) ∧
      rotate (rotate (rotate (rotate g 90) 90) 90) 90 = g

/-- MIRROR (R122) and INVERT (R123): the pixels, that each is its own inverse, and that INVERT commutes with ROTATE and
MIRROR (R123 marks that its own inference). -/
def Obligations.MirrorAndInvertPixels : Prop :=
  ∀ (s : State) (g : Grid) (degrees : Int), gridOk g = true →
    (∃ t, exec (.mirror g) s = .next { s with value := .grid t } ∧ hasSize t (rowsOf g) (colsOf g) = true ∧
        (∀ y < rowsOf g, ∀ x < colsOf g, pixel t y x = pixel g y (colsOf g - 1 - x)) ∧
        exec (.mirror t) s = .next { s with value := .grid g }) ∧
      (∃ t, exec (.invert g) s = .next { s with value := .grid t } ∧ hasSize t (rowsOf g) (colsOf g) = true ∧
        (∀ y < rowsOf g, ∀ x < colsOf g, pixel t y x = !pixel g y x) ∧
        exec (.invert t) s = .next { s with value := .grid g }) ∧
      invert (mirror g) = mirror (invert g) ∧ invert (rotate g degrees) = rotate (invert g) degrees

/-- ORIENT (R124): rotate, then mirror, then invert; height and width swap for ROT 90 and 270. -/
def Obligations.OrientationPipeline : Prop :=
  ∀ (s : State) (g : Grid), s.cfgd = true → gridOk g = true →
    ∃ t, exec (.orient g) s = .next { s with value := .grid t } ∧
      (s.cfg.rot = .r90 ∨ s.cfg.rot = .r270 → hasSize t (colsOf g) (rowsOf g) = true) ∧
      (s.cfg.rot = .r0 ∨ s.cfg.rot = .r180 → hasSize t (rowsOf g) (colsOf g) = true) ∧
      ∃ turned mirrored,
        turned = rotate g (rotDegrees s.cfg.rot) ∧
          (s.cfg.mir = false → mirrored = turned) ∧ (s.cfg.mir = true → mirrored = mirror turned) ∧
          (s.cfg.inv = false → t = mirrored) ∧ (s.cfg.inv = true → t = invert mirrored)

/-- LUMABIT (R125) is DOC0's inequality over the rationals, evaluated exactly. -/
def Obligations.LuminanceThresholdExact : Prop :=
  ∀ (s : State) (r g b : Byte),
    ∃ bit, exec (.lumabit r g b) s = .next { s with value := .bit bit } ∧
      (bit = false ↔
        ((2126 / 10000 : ℚ) * (r.toNat : ℚ) + (7152 / 10000 : ℚ) * (g.toNat : ℚ) + (722 / 10000 : ℚ) * (b.toNat : ℚ)) /
            255 < 1 / 2)

/-- RGBA2BIN (R126): each pixel from its own three bytes, alpha not read. -/
def Obligations.RgbaToBinaryPixels : Prop :=
  ∀ (s : State) (buf : List Byte) (w h : Nat), rgbaOk buf w h = true →
    ∃ t, exec (.rgba2bin buf w h) s = .next { s with value := .grid t } ∧ hasSize t h w = true ∧
      ∀ y < h, ∀ x < w,
        pixel t y x =
          lumaBit (buf.getD (4 * (y * w + x)) 0) (buf.getD (4 * (y * w + x) + 1) 0) (buf.getD (4 * (y * w + x) + 2) 0)

/-- RESIZE (R127): the length, and every byte from the floor-sampled source pixel, which is in range (R127's own
inference); the no-op of equal sizes agrees. -/
def Obligations.ResizeSamplesNearest : Prop :=
  ∀ (s : State) (buf : List Byte) (w h w2 h2 : Nat), rgbaOk buf w h = true → 1 ≤ w2 → 1 ≤ h2 →
    ∃ t, exec (.resize buf w h w2 h2) s = .next { s with value := .bytes t } ∧ t.length = 4 * w2 * h2 ∧
      (w2 = w → h2 = h → t = buf) ∧
      ∀ y2 < h2, ∀ x2 < w2, y2 * h / h2 < h ∧ x2 * w / w2 < w ∧
        ∀ k < 4, t[4 * (y2 * w2 + x2) + k]? = buf[4 * (y2 * h / h2 * w + x2 * w / w2) + k]?

/-- RESIZEG (R128). -/
def Obligations.ResizeGridPixels : Prop :=
  ∀ (s : State) (g : Grid) (w2 h2 : Nat), gridOk g = true → 1 ≤ w2 → 1 ≤ h2 →
    ∃ t, exec (.resizeg g w2 h2) s = .next { s with value := .grid t } ∧ hasSize t h2 w2 = true ∧
      (w2 = colsOf g → h2 = rowsOf g → t = g) ∧
      ∀ y2 < h2, ∀ x2 < w2, pixel t y2 x2 = pixel g (y2 * rowsOf g / h2) (x2 * colsOf g / w2)

/-- R128's corner, which the rule marks its own inference: thresholding commutes with resampling. -/
def Obligations.ThresholdCommutesWithResize : Prop :=
  ∀ (buf : List Byte) (w h w2 h2 : Nat), rgbaOk buf w h = true → 1 ≤ w2 → 1 ≤ h2 →
    resizeGrid (rgbaToBinary buf w h) w2 h2 = rgbaToBinary (resize buf w h w2 h2) w2 h2

/-- PACKBITS (R129): where every pixel goes and which bits are 0, for both axes and both orders; a group longer than 8
is refused. -/
def Obligations.PackBitsPlacesEveryPixel : Prop :=
  ∀ (s : State) (g : Grid) (axis : Axis) (order : BitOrder), gridOk g = true →
    let range := match axis with | .columns => rowsOf g | .rows => colsOf g
    let count := match axis with | .columns => colsOf g | .rows => rowsOf g
    let element (k j : Nat) : Pixel := match axis with | .columns => pixel g j k | .rows => pixel g k j
    (8 < range → exec (.packbits g axis order) s = .refused .packRange) ∧
      (range ≤ 8 →
        ∃ t, exec (.packbits g axis order) s = .next { s with value := .bytes t } ∧ t.length = count ∧
          ∀ k < count, ∃ v, t[k]? = some v ∧
            (order = .big →
              (∀ j < range, v.getLsbD (range - 1 - j) = element k j) ∧ ∀ i, range ≤ i → v.getLsbD i = false) ∧
            (order = .little →
              (∀ j < range, v.getLsbD (8 - range + j) = element k j) ∧ ∀ i < 8 - range, v.getLsbD i = false))

/-- BITREV8 (R130). -/
def Obligations.BitReversal : Prop :=
  ∀ (s : State) (v : Byte),
    ∃ t, exec (.bitrev8 v) s = .next { s with value := .byte t } ∧ (∀ i < 8, t.getLsbD i = v.getLsbD (7 - i)) ∧
      exec (.bitrev8 t) s = .next { s with value := .byte v }

/-- FLAT (R132) and FPRINT (R131): one byte a pixel, row-major; FP of the concatenation. -/
def Obligations.FlattenAndFingerprint : Prop :=
  (∀ (s : State) (g : Grid), gridOk g = true →
      ∃ t, exec (.flat (.grid g)) s = .next { s with value := .bytes t } ∧ t.length = rowsOf g * colsOf g ∧
        ∀ y < rowsOf g, ∀ x < colsOf g, t[y * colsOf g + x]? = some (if pixel g y x then 0x01 else 0x00)) ∧
    (∀ (s : State) (buf : List Byte), exec (.flat (.rgba buf)) s = .next { s with value := .bytes buf }) ∧
    ∀ (s : State) (fs : List Frame), fs ≠ [] → (∀ f ∈ fs, frameOk f = true) →
      exec (.fprint fs) s = .next { s with value := .digest (Config.fp (fs.map flatten).flatten) }

/-- CONTENTEQ (R133) is equality of grids. -/
def Obligations.ContentEqualityIsEquality : Prop :=
  ∀ (s : State) (a b : Grid), gridOk a = true → gridOk b = true →
    ∃ bit, exec (.contenteq a b) s = .next { s with value := .bit bit } ∧ (bit = true ↔ a = b)

/-! ## Panel functions -/

/-- HEXEXPAND (R151): two characters a byte, high digit first, lowercase. CHKSUM (R152): the formula, its low 8 bits. -/
def Obligations.HexExpansionAndChecksum : Prop :=
  ∀ (s : State) (bytes : List Byte),
    (∃ t, exec (.hexexpand bytes) s = .next { s with value := .bytes t } ∧ t.length = 2 * bytes.length ∧
        ∀ (i : Nat) (v : Byte), bytes[i]? = some v →
          ∃ hi lo, t[2 * i]? = some hi ∧ t[2 * i + 1]? = some lo ∧
            hi.toNat = (if v.toNat / 16 ≤ 9 then 0x30 + v.toNat / 16 else 0x57 + v.toNat / 16) ∧
            lo.toNat = if v.toNat % 16 ≤ 9 then 0x30 + v.toNat % 16 else 0x57 + v.toNat % 16) ∧
      ∃ v, exec (.chksum bytes) s = .next { s with value := .byte v } ∧
        v.toNat = ((((bytes.map BitVec.toNat).sum &&& 0xFF) ^^^ 0xFF) + 3) &&& 0xFF

/-- DIGITVAL (R157): bit `i` is segment `i`, bit 7 is 0. -/
def Obligations.DigitValueBits : Prop :=
  ∀ (s : State) (d : Segs),
    ∃ n, exec (.digitval d) s = .next { s with value := .number n } ∧ n < 128 ∧
      [0, 1, 2, 3, 4, 5, 6].map n.testBit = [d.s0, d.s1, d.s2, d.s3, d.s4, d.s5, d.s6]

/-- SETCONTENT (R150): the register takes the whole grid, whatever its size (log 29); every other register and every other
field is as before. -/
def Obligations.SetContentReplacesOneRegister : Prop :=
  ∀ (s : State) (r c : Nat) (g : Grid) (p : Panel), s.cfgd = true → s.cfg.ptype ≠ .seg → getPanel s r c = some p →
    ∃ t, exec (.setcontent r c g) s = .next t ∧ t = { s with panels := t.panels, value := .nothing } ∧
      getPanel t r c = some (.dot g) ∧ ∀ r' c', ¬(r' = r ∧ c' = c) → getPanel t r' c' = getPanel s r' c'

/-- SETVERT (R155) and SETHORIZ (R156): each writes its own segments of every digit from its block and leaves the
others, every other register and every other field as before. -/
def Obligations.SegmentWritesTouchTheirSegments : Prop :=
  ∀ (s : State) (r c : Nat) (g : Grid) (digits : List (List Segs)), s.cfgd = true → s.cfg.ptype = .seg →
    getPanel s r c = some (.seg digits) →
    (hasSize g (2 * s.cfg.ph) (2 * s.cfg.pw) = true →
        ∃ t new, exec (.setvert r c g) s = .next t ∧ t = { s with panels := t.panels, value := .nothing } ∧
          getPanel t r c = some (.seg new) ∧ (∀ r' c', ¬(r' = r ∧ c' = c) → getPanel t r' c' = getPanel s r' c') ∧
          ∀ dy < s.cfg.ph, ∀ dx < s.cfg.pw,
            (digitAt new dy dx).s1 = pixel g (2 * dy) (2 * dx) ∧ (digitAt new dy dx).s5 = pixel g (2 * dy) (2 * dx + 1) ∧
              (digitAt new dy dx).s2 = pixel g (2 * dy + 1) (2 * dx) ∧
              (digitAt new dy dx).s4 = pixel g (2 * dy + 1) (2 * dx + 1) ∧
              (digitAt new dy dx).s0 = (digitAt digits dy dx).s0 ∧ (digitAt new dy dx).s3 = (digitAt digits dy dx).s3 ∧
              (digitAt new dy dx).s6 = (digitAt digits dy dx).s6) ∧
      (hasSize g (3 * s.cfg.ph) s.cfg.pw = true →
        ∃ t new, exec (.sethoriz r c g) s = .next t ∧ t = { s with panels := t.panels, value := .nothing } ∧
          getPanel t r c = some (.seg new) ∧ (∀ r' c', ¬(r' = r ∧ c' = c) → getPanel t r' c' = getPanel s r' c') ∧
          ∀ dy < s.cfg.ph, ∀ dx < s.cfg.pw,
            (digitAt new dy dx).s6 = pixel g (3 * dy) dx ∧ (digitAt new dy dx).s0 = pixel g (3 * dy + 1) dx ∧
              (digitAt new dy dx).s3 = pixel g (3 * dy + 2) dx ∧ (digitAt new dy dx).s1 = (digitAt digits dy dx).s1 ∧
              (digitAt new dy dx).s2 = (digitAt digits dy dx).s2 ∧ (digitAt new dy dx).s4 = (digitAt digits dy dx).s4 ∧
              (digitAt new dy dx).s5 = (digitAt digits dy dx).s5)

/-- ENCA and ENCODE for PTYPE A (R95, R153): every byte of the frame. -/
def Obligations.TypeAFrameLayout : Prop :=
  ∀ (s : State) (r c : Nat) (flush : Bool) (g : Grid), s.cfgd = true → s.cfg.ptype = .a →
    getPanel s r c = some (.dot g) → hasSize g s.cfg.ph s.cfg.pw = true → 1 ≤ s.cfg.pw → 1 ≤ s.cfg.ph → s.cfg.ph ≤ 8 →
    ∃ t, exec (.enca r c flush) s = .next { s with value := .bytes t } ∧
      exec (.encode r c flush) s = .next { s with value := .bytes t } ∧ t.length = s.cfg.pw + 4 ∧
      t[0]? = some 0x80 ∧ t[1]? = some (if flush then 0x83 else 0x84) ∧ t[2]? = some (addrAt s.cfg r c) ∧
      t[3 + s.cfg.pw]? = some 0x8F ∧
      ∀ x < s.cfg.pw, ∃ v, t[3 + x]? = some v ∧
        (∀ y < s.cfg.ph, v.getLsbD (s.cfg.ph - 1 - y) = pixel g y x) ∧ ∀ i, s.cfg.ph ≤ i → v.getLsbD i = false

/-- ENCB and ENCODE for PTYPE B (R96, R154): every field of the frame, the same for both values of `flush`. -/
def Obligations.TypeBFrameLayout : Prop :=
  ∀ (s : State) (r c : Nat) (g : Grid), s.cfgd = true → s.cfg.ptype = .b →
    getPanel s r c = some (.dot g) → hasSize g s.cfg.ph s.cfg.pw = true → 1 ≤ s.cfg.pw → 1 ≤ s.cfg.ph → s.cfg.ph ≤ 8 →
    ∃ data : List Byte, data.length = s.cfg.pw ∧
      (∀ x < s.cfg.pw, ∃ v, data[x]? = some v ∧
        (∀ y < s.cfg.ph, v.getLsbD (s.cfg.ph - 1 - y) = pixel g y x) ∧ ∀ i, s.cfg.ph ≤ i → v.getLsbD i = false) ∧
      let command := hexExpand (addrAt s.cfg r c :: BitVec.ofNat 8 s.cfg.pw :: data)
      let t := 0x02 :: (command ++ 0x03 :: hexExpand [chkSum command])
      t.length = 2 * s.cfg.pw + 8 ∧
        ∀ flush, exec (.encb r c flush) s = .next { s with value := .bytes t } ∧
          exec (.encode r c flush) s = .next { s with value := .bytes t }

/-- ENCSEG and ENCODE for PTYPE SEG (R97, R158): every byte of the frame, digits row-major. -/
def Obligations.SegmentFrameLayout : Prop :=
  ∀ (s : State) (r c : Nat) (flush : Bool) (digits : List (List Segs)), s.cfgd = true → s.cfg.ptype = .seg →
    getPanel s r c = some (.seg digits) → digits.length = s.cfg.ph → (∀ row ∈ digits, row.length = s.cfg.pw) →
    ∃ t, exec (.encseg r c flush) s = .next { s with value := .bytes t } ∧
      exec (.encode r c flush) s = .next { s with value := .bytes t } ∧ t.length = s.cfg.pw * s.cfg.ph + 4 ∧
      t[0]? = some 0x80 ∧ t[1]? = some (if flush then 0x83 else 0x84) ∧ t[2]? = some (addrAt s.cfg r c) ∧
      t[3 + s.cfg.pw * s.cfg.ph]? = some 0x8F ∧
      ∀ dy < s.cfg.ph, ∀ dx < s.cfg.pw, ∃ v, t[3 + (dy * s.cfg.pw + dx)]? = some v ∧
        (List.range 8).map v.getLsbD =
          (let d := digitAt digits dy dx
           [d.s0, d.s1, d.s2, d.s3, d.s4, d.s5, d.s6, false])

/-- The WIRE rows (R95 to R97) give the frame's bytes (log 3). -/
def Obligations.WireRowsEmitTheirBytes : Prop :=
  (∀ (s : State) (addr : Byte) (data : List Byte), data ≠ [] →
      exec (.typeaFlush addr data) s = .next { s with value := .bytes (0x80 :: 0x83 :: addr :: (data ++ [0x8F])) } ∧
        exec (.typeaBuffer addr data) s = .next { s with value := .bytes (0x80 :: 0x84 :: addr :: (data ++ [0x8F])) } ∧
        let command := hexExpand (addr :: BitVec.ofNat 8 data.length :: data)
        exec (.typeb addr data) s =
          .next { s with value := .bytes (0x02 :: (command ++ 0x03 :: hexExpand [chkSum command])) }) ∧
    ∀ (s : State) (addr : Byte) (digits : List (BitVec 7)), digits ≠ [] →
      let data := digits.map fun d => BitVec.ofNat 8 d.toNat
      exec (.segFlush addr digits) s = .next { s with value := .bytes (0x80 :: 0x83 :: addr :: (data ++ [0x8F])) } ∧
        exec (.segBuffer addr digits) s = .next { s with value := .bytes (0x80 :: 0x84 :: addr :: (data ++ [0x8F])) }

/-! ## Where a row stops

The names of the stops are the model's. -/

/-- A function or a wire row called outside its rule's domain is refused: a grid that is none (40_frame_utilities.md's
common domain), a frame of tag Other, a buffer of another length, a target size of 0, a region outside the grid, a frame
without data (log 12). ROTATE's angle and PACKBITS' range stand with their own statements. -/
def Obligations.StopsOutsideTheDomain : Prop :=
  (∀ (s : State) (g : Grid), gridOk g = false →
      (∀ (degrees : Int) (axis : Axis) (order : BitOrder) (w2 h2 : Nat) (b : Grid),
        [Instr.rot90 g, .mirror g, .invert g, .rotate g degrees, .packbits g axis order, .resizeg g w2 h2,
            .contenteq g b, .contenteq b g].Forall fun i => exec i s = .refused .outsideDomain) ∧
        (s.cfgd = true → exec (.orient g) s = .refused .outsideDomain)) ∧
    (∀ (s : State) (f v : Frame) (fs : List Frame), frameOk f = false →
      [Instr.flat f, .dedup f, .segfp f v, .segfp v f].Forall (fun i => exec i s = .refused .outsideDomain) ∧
        (f ∈ fs → exec (.fprint fs) s = .refused .outsideDomain)) ∧
    (∀ s : State, exec (.fprint []) s = .refused .outsideDomain) ∧
    (∀ (s : State) (g : Grid) (buf : List Byte) (w h w2 h2 : Nat),
      (rgbaOk buf w h = false →
          exec (.rgba2bin buf w h) s = .refused .outsideDomain ∧
            exec (.resize buf w h w2 h2) s = .refused .outsideDomain) ∧
        (w2 = 0 ∨ h2 = 0 →
          exec (.resize buf w h w2 h2) s = .refused .outsideDomain ∧
            exec (.resizeg g w2 h2) s = .refused .outsideDomain)) ∧
    (∀ (s : State) (g : Grid) (r c th tw : Nat), sliceOk g r c th tw = false →
      exec (.slice g r c th tw) s = .refused .outsideDomain) ∧
    ∀ (s : State) (addr : Byte),
      [Instr.typeaFlush addr [], .typeaBuffer addr [], .typeb addr [], .segFlush addr [], .segBuffer addr []].Forall
        fun i => exec i s = .refused .outsideDomain

/-- Where a sub-step and a code stop: a configuration register read while CFGD = 0 (R22, R32; log 10), a Display of the
other variant (log 14), a frame VALIDATE rejects or a grid of another size than the device's (log 15), a region outside a
sub-frame (log 12), and a code that no rule describes (log 27). -/
def Obligations.StopsOfSubSteps : Prop :=
  (∀ (s : State) (g gv gh : Grid) (f : Frame) (fp : Digest) (flush : Bool) (now : Nat) (r c : Nat), s.cfgd = false →
      [Instr.geom, .seggeom, .validate f, .prep f, .segprep f, .fanout g flush, .segfanout gv gh flush, .record fp now,
          .dotcore f flush now, .segcore f flush now, .segslice gv gh r c, .buildpanels, .beginopen, .enqueue f flush,
          .orient g].Forall fun i => exec i s = .fault .unconfigured) ∧
    (∀ (s : State) (g gv gh : Grid) (f : Frame) (flush : Bool) (now : Nat), s.cfgd = true →
      (s.cfg.ptype = .seg →
          exec (.fanout g flush) s = .refused .wrongPanelType ∧
            exec (.dotcore f flush now) s = .refused .wrongPanelType ∧
            (hasSize gv (segGeomOf s.cfg).vh (segGeomOf s.cfg).vw = false ∨
                hasSize gh (segGeomOf s.cfg).hh (segGeomOf s.cfg).hw = false →
              exec (.segfanout gv gh flush) s = .refused .gridSize)) ∧
        (s.cfg.ptype ≠ .seg →
          exec (.segfanout gv gh flush) s = .refused .wrongPanelType ∧
            exec (.segcore f flush now) s = .refused .wrongPanelType ∧
            (hasSize g (geomOf s.cfg).devH (geomOf s.cfg).devW = false →
              exec (.fanout g flush) s = .refused .gridSize))) ∧
    (∀ (s : State) (f : Frame) (e : Err), s.cfgd = true → validateFrame s.cfg f = some e →
      exec (.prep f) s = .refused .frameNotValidated ∧ exec (.segprep f) s = .refused .frameNotValidated) ∧
    (∀ (s : State) (gv gh : Grid) (r c : Nat), s.cfgd = true →
      sliceOk gv r c (2 * s.cfg.ph) (2 * s.cfg.pw) = false ∨ sliceOk gh r c (3 * s.cfg.ph) s.cfg.pw = false →
      exec (.segslice gv gh r c) s = .refused .outsideDomain) ∧
    ∀ (s : State) (c : Code) (rest : List Code) (e : DecodeError), s.schedule = c :: rest →
      decode s.cfg.ptype c = .error e → (∀ op, e ≠ .illegalOp op) → step s = .refused (.malformedCode e)

/-- Where a function of a panel register stops: CFGD = 0 (log 10), no such layout cell (R23; log 11), a register of the
other variant (log 14), a sub-frame of another size, a register that holds no grid or more than 8 rows (R129; logs 12,
13). ENCODE stops as the encoder it selects (R159). -/
def Obligations.StopsOnPanelRegisters : Prop :=
  ∀ (s : State) (r c : Nat) (g : Grid) (flush : Bool),
    let all := [Instr.setcontent r c g, .setvert r c g, .sethoriz r c g, .enca r c flush, .encb r c flush,
      .encseg r c flush, .encode r c flush]
    (s.cfgd = false → all.Forall fun i => exec i s = .fault .unconfigured) ∧
      (s.cfgd = true → getPanel s r c = none → all.Forall fun i => exec i s = .fault .noSuchPanel) ∧
      (∀ p, s.cfgd = true → getPanel s r c = some p →
        (s.cfg.ptype = .seg → exec (.setcontent r c g) s = .refused .wrongPanelType) ∧
          (s.cfg.ptype ≠ .seg →
            [Instr.setvert r c g, .sethoriz r c g, .encseg r c flush].Forall
              fun i => exec i s = .refused .wrongPanelType) ∧
          (s.cfg.ptype ≠ .a → exec (.enca r c flush) s = .refused .wrongPanelType) ∧
          (s.cfg.ptype ≠ .b → exec (.encb r c flush) s = .refused .wrongPanelType)) ∧
      (∀ digits, s.cfgd = true → getPanel s r c = some (.seg digits) → s.cfg.ptype = .seg →
        (hasSize g (2 * s.cfg.ph) (2 * s.cfg.pw) = false → exec (.setvert r c g) s = .refused .outsideDomain) ∧
          (hasSize g (3 * s.cfg.ph) s.cfg.pw = false → exec (.sethoriz r c g) s = .refused .outsideDomain)) ∧
      (s.cfg.ptype = .a → exec (.encode r c flush) s = exec (.enca r c flush) s) ∧
      (s.cfg.ptype = .b → exec (.encode r c flush) s = exec (.encb r c flush) s) ∧
      (s.cfg.ptype = .seg → exec (.encode r c flush) s = exec (.encseg r c flush) s) ∧
      ∀ content, s.cfgd = true → getPanel s r c = some (.dot content) →
        (s.cfg.ptype = .a →
            (gridOk content = false → exec (.enca r c flush) s = .refused .outsideDomain) ∧
              (gridOk content = true → 8 < rowsOf content → exec (.enca r c flush) s = .refused .packRange)) ∧
          (s.cfg.ptype = .b →
            (gridOk content = false → exec (.encb r c flush) s = .refused .outsideDomain) ∧
              (gridOk content = true → 8 < rowsOf content → exec (.encb r c flush) s = .refused .packRange)) ∧
          (s.cfg.ptype = .seg → exec (.encseg r c flush) s = .refused .wrongPanelType)
end

