-- ==== Sys2Proof/Laws/Grid.lean ====
section
/-! SUPPORT. Grids made by `tabulate`: their size, their pixels, and that a grid of the common domain is the table of
its own pixels. -/

namespace Sys2Proof.Machine

variable {α : Type}

@[simp] theorem tabulate_length (h w : Nat) (f : Nat → Nat → α) : (tabulate h w f).length = h := by
  simp [tabulate]

theorem tabulate_getElem? (h w : Nat) (f : Nat → Nat → α) (y : Nat) :
    (tabulate h w f)[y]? = if y < h then some ((List.range w).map (f y)) else none := by
  simp only [tabulate, List.getElem?_map]
  by_cases hy : y < h <;> simp [hy]

theorem tabulate_row_length {h w : Nat} {f : Nat → Nat → α} {row : List α} (hr : row ∈ tabulate h w f) :
    row.length = w := by
  simp only [tabulate, List.mem_map] at hr
  obtain ⟨y, -, rfl⟩ := hr
  simp

theorem tabulate_getD (h w : Nat) (f : Nat → Nat → α) (y x : Nat) (d : α) :
    ((tabulate h w f).getD y []).getD x d = if y < h ∧ x < w then f y x else d := by
  simp only [List.getD_eq_getElem?_getD, tabulate_getElem?]
  by_cases hy : y < h <;> by_cases hx : x < w <;> simp [hy, hx]

theorem tabulate_congr {h w : Nat} {f g : Nat → Nat → α} (hfg : ∀ y < h, ∀ x < w, f y x = g y x) :
    tabulate h w f = tabulate h w g := by
  simp only [tabulate]
  refine List.map_congr_left fun y hy => List.map_congr_left fun x hx => ?_
  exact hfg y (List.mem_range.mp hy) x (List.mem_range.mp hx)

/-- The pixel of a tabulated grid. -/
theorem pixel_tabulate (h w : Nat) (f : Nat → Nat → Pixel) (y x : Nat) :
    pixel (tabulate h w f) y x = if y < h ∧ x < w then f y x else false := tabulate_getD h w f y x false

/-- The digit of a tabulated register. -/
theorem digitAt_tabulate (h w : Nat) (f : Nat → Nat → Segs) (y x : Nat) :
    digitAt (tabulate h w f) y x = if y < h ∧ x < w then f y x else noSegs := tabulate_getD h w f y x noSegs

@[simp] theorem rowsOf_tabulate (h w : Nat) (f : Nat → Nat → Pixel) : rowsOf (tabulate h w f) = h := by
  simp [rowsOf]

theorem colsOf_tabulate {h : Nat} (hh : 1 ≤ h) (w : Nat) (f : Nat → Nat → Pixel) :
    colsOf (tabulate h w f) = w := by
  obtain ⟨k, rfl⟩ : ∃ k, h = k + 1 := ⟨h - 1, by omega⟩
  simp [colsOf, tabulate, List.range_succ_eq_map]

@[simp] theorem hasSize_tabulate (h w : Nat) (f : Nat → Nat → Pixel) : hasSize (tabulate h w f) h w = true := by
  simp only [hasSize, tabulate_length, beq_self_eq_true, Bool.true_and, List.all_eq_true, beq_iff_eq]
  exact fun row hr => tabulate_row_length hr

theorem hasSize_iff {g : Grid} {h w : Nat} :
    hasSize g h w = true ↔ g.length = h ∧ ∀ row ∈ g, row.length = w := by
  simp [hasSize]

/-- What the common domain says of a grid. -/
theorem gridOk_iff {g : Grid} :
    gridOk g = true ↔ 1 ≤ rowsOf g ∧ 1 ≤ colsOf g ∧ hasSize g (rowsOf g) (colsOf g) = true := by
  simp [gridOk, and_assoc]

theorem gridOk_tabulate {h w : Nat} (hh : 1 ≤ h) (hw : 1 ≤ w) (f : Nat → Nat → Pixel) :
    gridOk (tabulate h w f) = true := by
  rw [gridOk_iff, rowsOf_tabulate, colsOf_tabulate hh]
  exact ⟨hh, hw, hasSize_tabulate h w f⟩

/-- A grid of a stated size is the table of its pixels. -/
theorem eq_tabulate_of_hasSize {g : Grid} {h w : Nat} (hs : hasSize g h w = true) : g = tabulate h w (pixel g) := by
  obtain ⟨hl, hr⟩ := hasSize_iff.mp hs
  refine List.ext_getElem? fun y => ?_
  rw [tabulate_getElem?]
  by_cases hy : y < h
  · have hy' : y < g.length := by omega
    rw [if_pos hy, List.getElem?_eq_getElem hy']
    congr 1
    have hw : g[y].length = w := hr _ (List.getElem_mem hy')
    refine List.ext_getElem (by simp [hw]) fun x hx _ => ?_
    simp only [List.getElem_map, List.getElem_range, pixel, List.getD_eq_getElem?_getD,
      List.getElem?_eq_getElem hy', Option.getD_some, List.getElem?_eq_getElem hx]
  · rw [if_neg hy, List.getElem?_eq_none (by omega)]

/-- A grid of the common domain is the table of its pixels. -/
theorem eq_tabulate {g : Grid} (hg : gridOk g = true) : g = tabulate (rowsOf g) (colsOf g) (pixel g) :=
  eq_tabulate_of_hasSize (gridOk_iff.mp hg).2.2

/-- A grid of a positive size is in the common domain, and its size is that one. -/
theorem gridOk_of_hasSize {g : Grid} {h w : Nat} (hs : hasSize g h w = true) (hh : 1 ≤ h) (hw : 1 ≤ w) :
    gridOk g = true ∧ rowsOf g = h ∧ colsOf g = w := by
  have hg := eq_tabulate_of_hasSize hs
  refine ⟨?_, ?_, ?_⟩
  · rw [hg]; exact gridOk_tabulate hh hw _
  · rw [hg]; exact rowsOf_tabulate _ _ _
  · rw [hg]; exact colsOf_tabulate hh _ _

/-- Two grids of one size are equal when their pixels are. -/
theorem grid_ext {a b : Grid} {h w : Nat} (ha : hasSize a h w = true) (hb : hasSize b h w = true)
    (hp : ∀ y < h, ∀ x < w, pixel a y x = pixel b y x) : a = b := by
  rw [eq_tabulate_of_hasSize ha, eq_tabulate_of_hasSize hb]
  exact tabulate_congr hp

/-! ## The geometry functions -/

theorem rot90_gridOk {g : Grid} (hg : gridOk g = true) :
    gridOk (rot90 g) = true ∧ rowsOf (rot90 g) = colsOf g ∧ colsOf (rot90 g) = rowsOf g := by
  obtain ⟨h1, h2, -⟩ := gridOk_iff.mp hg
  exact ⟨gridOk_tabulate h2 h1 _, rowsOf_tabulate _ _ _, colsOf_tabulate h2 _ _⟩

theorem pixel_rot90 (g : Grid) {i j : Nat} (hi : i < colsOf g) (hj : j < rowsOf g) :
    pixel (rot90 g) i j = pixel g (rowsOf g - 1 - j) i := by
  simp [rot90, pixel_tabulate, hi, hj]

theorem mirror_gridOk {g : Grid} (hg : gridOk g = true) :
    gridOk (mirror g) = true ∧ rowsOf (mirror g) = rowsOf g ∧ colsOf (mirror g) = colsOf g := by
  obtain ⟨h1, h2, -⟩ := gridOk_iff.mp hg
  exact ⟨gridOk_tabulate h1 h2 _, rowsOf_tabulate _ _ _, colsOf_tabulate h1 _ _⟩

theorem pixel_mirror (g : Grid) {y x : Nat} (hy : y < rowsOf g) (hx : x < colsOf g) :
    pixel (mirror g) y x = pixel g y (colsOf g - 1 - x) := by
  simp [mirror, pixel_tabulate, hy, hx]

theorem invert_gridOk {g : Grid} (hg : gridOk g = true) :
    gridOk (invert g) = true ∧ rowsOf (invert g) = rowsOf g ∧ colsOf (invert g) = colsOf g := by
  obtain ⟨h1, h2, -⟩ := gridOk_iff.mp hg
  exact ⟨gridOk_tabulate h1 h2 _, rowsOf_tabulate _ _ _, colsOf_tabulate h1 _ _⟩

theorem pixel_invert (g : Grid) {y x : Nat} (hy : y < rowsOf g) (hx : x < colsOf g) :
    pixel (invert g) y x = !pixel g y x := by
  simp [invert, pixel_tabulate, hy, hx]

end Sys2Proof.Machine
end

