-- ==== Sys2Proof/Laws/Bits.lean ====
section
/-! SUPPORT. The bits of a packed group and of a reversed byte (R129, R130), and where an element of a row-major
concatenation stands. -/

namespace Sys2Proof.Machine

theorem packGroup_zero (bit : Nat → Pixel) : packGroup 0 bit = 0 := by simp [packGroup]

theorem packGroup_succ (n : Nat) (b : Nat → Pixel) : packGroup (n + 1) b = Nat.bit (b n) (packGroup n b) := by
  rw [Nat.bit_val]
  unfold packGroup
  rw [List.range_succ, List.map_append, List.sum_append]
  simp only [List.map_cons, List.map_nil, List.sum_cons, List.sum_nil, Nat.add_sub_cancel, Nat.sub_self, pow_zero,
    mul_one, add_zero]
  congr 1
  · rw [← List.sum_map_mul_left]
    congr 1
    apply List.map_congr_left
    intro j hj
    rw [show n - j = (n - 1 - j) + 1 by have := List.mem_range.mp hj; omega, pow_succ]
    ring
  · cases b n <;> rfl

/-- Element `j` of a group of `n` is bit `n-1-j` (R129). -/
theorem packGroup_testBit (n : Nat) (b : Nat → Pixel) :
    ∀ i, (packGroup n b).testBit i = if i < n then b (n - 1 - i) else false := by
  induction n with
  | zero => intro i; simp [packGroup_zero]
  | succ n ih =>
    intro i
    rw [packGroup_succ]
    cases i with
    | zero => rw [Nat.testBit_bit_zero]; simp
    | succ i =>
      rw [Nat.testBit_bit_succ, ih i]
      by_cases h : i < n
      · rw [if_pos h, if_pos (by omega : i + 1 < n + 1)]; congr 1; omega
      · rw [if_neg h, if_neg (by omega : ¬i + 1 < n + 1)]

/-- The bits of a packed byte (R129). -/
theorem packGroup_getLsbD {n : Nat} (hn : n ≤ 8) (b : Nat → Pixel) (i : Nat) :
    (BitVec.ofNat 8 (packGroup n b)).getLsbD i = if i < n then b (n - 1 - i) else false := by
  rw [BitVec.getLsbD_ofNat, packGroup_testBit]
  by_cases h : i < n
  · simp [h, (by omega : i < 8)]
  · simp [h]

/-- The bits of a reversed byte (R130). -/
theorem bitRev8_getLsbD (v : Byte) (i : Nat) : (bitRev8 v).getLsbD i = (decide (i < 8) && v.getLsbD (7 - i)) := by
  have key : ∀ v : Byte, ∀ i : Fin 8, (bitRev8 v).getLsbD i.1 = v.getLsbD (7 - i.1) := by decide +kernel
  by_cases h : i < 8
  · simp only [h, decide_true, Bool.true_and]
    exact key v ⟨i, h⟩
  · simp only [h, decide_false, Bool.false_and]
    exact BitVec.getLsbD_of_ge _ _ (by omega)

/-- `n` blocks of length `m`, concatenated: element `j` of block `i` is element `i * m + j`. -/
theorem flatMap_blocks {α : Type} (n m : Nat) (f : Nat → List α) (hf : ∀ i < n, (f i).length = m) :
    ((List.range n).flatMap f).length = n * m ∧
      ∀ i < n, ∀ j < m, ((List.range n).flatMap f)[i * m + j]? = (f i)[j]? := by
  induction n with
  | zero => simp
  | succ n ih =>
    obtain ⟨h1, h2⟩ := ih fun i hi => hf i (by omega)
    have hn := hf n (by omega)
    rw [List.range_succ, List.flatMap_append, List.flatMap_singleton]
    refine ⟨by simp only [List.length_append, h1, hn]; ring, fun i hi j hj => ?_⟩
    by_cases hin : i < n
    · rw [List.getElem?_append_left (by rw [h1]; nlinarith)]
      exact h2 i hin j hj
    · obtain rfl : i = n := by omega
      rw [List.getElem?_append_right (by rw [h1]; omega), h1]
      congr 1; omega

/-- `floor((i * src) / dst)` is below `src` for `i` below `dst` (R127). -/
theorem sampleIndex_lt {i src dst : Nat} (h : i < dst) (hs : 1 ≤ src) : sampleIndex i src dst < src := by
  unfold sampleIndex
  rw [Nat.div_lt_iff_lt_mul (by omega), Nat.mul_comm src dst]
  exact Nat.mul_lt_mul_of_pos_right h (by omega)

end Sys2Proof.Machine
end

