-- ==== Sys2Proof/Laws/Checks.lean ====
section
/-! SUPPORT. The parts of CHECKCFG (R226): which devices fail a check, which index is recorded, ROT from degrees, and the
set of an address list. -/

namespace Sys2Proof.Machine

theorem mem_failing {p : DeviceEntry → Bool} {ds : List DeviceEntry} {d : Nat} :
    d ∈ failing p ds ↔ ∃ e, ds[d]? = some e ∧ p e = true := by
  unfold failing
  simp only [List.mem_filter, List.mem_range]
  cases h : ds[d]? with
  | none => simp
  | some e =>
    obtain ⟨hl, -⟩ := List.getElem?_eq_some_iff.mp h
    simp [hl]

/-- The recorded index is one that fails (log 16). -/
theorem blamed_mem {l : List Nat} (h : l ≠ []) : blamed l ∈ l := by
  match l with
  | [] => exact absurd rfl h
  | [d] => simp [blamed]
  | d :: e :: rest =>
    simp only [blamed]
    have hm : Config.pickDevice (d :: e :: rest) % (d :: e :: rest).length < (d :: e :: rest).length :=
      Nat.mod_lt _ (by simp)
    rw [List.getD_eq_getElem?_getD, List.getElem?_eq_getElem hm]
    exact List.getElem_mem hm

theorem any_eq_true_iff_failing {p : DeviceEntry → Bool} {ds : List DeviceEntry} :
    ds.any p = true ↔ failing p ds ≠ [] := by
  rw [List.any_eq_true]
  constructor
  · rintro ⟨e, he, hp⟩ hn
    obtain ⟨d, hd⟩ := List.mem_iff_getElem?.mp he
    have hm : d ∈ failing p ds := mem_failing.mpr ⟨e, hd, hp⟩
    rw [hn] at hm
    simp at hm
  · intro h
    obtain ⟨d, hd⟩ := List.exists_mem_of_ne_nil _ h
    obtain ⟨e, he, hp⟩ := mem_failing.mp hd
    exact ⟨e, List.mem_of_getElem? he, hp⟩

/-- ROT's four values (R21, R226 check 6). -/
theorem rotationOf_eq_none {n : Nat} : Machine.rotationOf n = none ↔ n ∉ [0, 90, 180, 270] := by
  unfold Machine.rotationOf
  by_cases a : n = 0 <;> by_cases b : n = 90 <;> by_cases c : n = 180 <;> by_cases d : n = 270 <;> simp [a, b, c, d]

theorem rotDegrees_of_rotationOf {n : Nat} {r : Rotation} (h : Machine.rotationOf n = some r) : rotDegrees r = n := by
  unfold Machine.rotationOf at h
  repeat' split at h
  all_goals first | cases h; done | (cases h; simp [rotDegrees, *])

theorem mem_insertAddr {a x : Int} {l : List Int} : x ∈ insertAddr a l ↔ x = a ∨ x ∈ l := by
  induction l with
  | nil => simp [insertAddr]
  | cons b bs ih =>
    simp only [insertAddr]
    split
    · simp
    split
    · rename_i h; subst h; simp
    · simp [ih]; tauto

/-- DEVADDR[d] is "the set of DEVICES[d].addrs" (R226). -/
theorem mem_addrSet {x : Int} {l : List Int} : x ∈ addrSet l ↔ x ∈ l := by
  induction l with
  | nil => simp [addrSet]
  | cons a l ih =>
    have h : addrSet (a :: l) = insertAddr a (addrSet l) := rfl
    rw [h, mem_insertAddr, ih]; simp

end Sys2Proof.Machine
end

