-- ==== Sys2Proof/Laws/Codec.lean ====
section
/-! SUPPORT. The helpers of the decoder and the encoder: the end of a list, hexadecimal expansion with its inverse
(R98 (e), R151), and the fields that may be left out (R92, R93). -/

namespace Sys2Proof

theorem splitEnd_append {α : Type} (xs : List α) (e : α) : splitEnd (xs ++ [e]) = some (xs, e) := by
  induction xs with
  | nil => rfl
  | cons x xs ih => simp [splitEnd, ih]

theorem eq_append_of_splitEnd {α : Type} {l xs : List α} {e : α} (h : splitEnd l = some (xs, e)) : l = xs ++ [e] := by
  induction l generalizing xs e with
  | nil => cases h
  | cons x l ih =>
    simp only [splitEnd] at h
    split at h
    · rename_i hn
      cases h
      cases l with
      | nil => rfl
      | cons y ys => simp only [splitEnd] at hn; split at hn <;> cases hn
    · rename_i ys e' hs
      cases h
      rw [ih hs]; rfl

@[simp] theorem hexExpand_nil : hexExpand [] = [] := rfl

theorem hexExpand_cons (v : Byte) (bs : List Byte) :
    hexExpand (v :: bs) = hexDigit (v.toNat / 16) :: hexDigit (v.toNat % 16) :: hexExpand bs := rfl

/-- Two characters a byte (R151). -/
@[simp] theorem hexExpand_length (bs : List Byte) : (hexExpand bs).length = 2 * bs.length := by
  induction bs with
  | nil => rfl
  | cons v bs ih => rw [hexExpand_cons]; simp only [List.length_cons, ih]; omega

/-- Where a byte's two characters stand (R151). -/
theorem hexExpand_getElem? (bs : List Byte) : ∀ (i : Nat) (v : Byte), bs[i]? = some v →
    (hexExpand bs)[2 * i]? = some (hexDigit (v.toNat / 16)) ∧
      (hexExpand bs)[2 * i + 1]? = some (hexDigit (v.toNat % 16)) := by
  induction bs with
  | nil => intro i v h; simp at h
  | cons w bs ih =>
    intro i v h
    rw [hexExpand_cons]
    cases i with
    | zero => simp at h; subst h; simp
    | succ i =>
      rw [show 2 * (i + 1) = 2 * i + 1 + 1 by ring]
      simpa using ih i v (by simpa using h)

/-- A byte's two digits are read back. -/
theorem unhexDigit_hexDigit (v : Byte) :
    unhexDigit (hexDigit (v.toNat / 16)) = some (v.toNat / 16) ∧
      unhexDigit (hexDigit (v.toNat % 16)) = some (v.toNat % 16) := by
  revert v; decide +kernel

/-- A character that reads as a digit is that digit's character. -/
theorem hexDigit_of_unhexDigit {ch : Byte} {n : Nat} (h : unhexDigit ch = some n) : n < 16 ∧ hexDigit n = ch := by
  have key : ∀ ch : Byte, (match unhexDigit ch with
      | some n => decide (n < 16 ∧ hexDigit n = ch)
      | none => true) = true := by decide +kernel
  have hc := key ch
  rw [h] at hc
  simpa using hc

theorem unhex_hexExpand (bs : List Byte) : unhex (hexExpand bs) = some bs := by
  induction bs with
  | nil => rfl
  | cons v bs ih =>
    obtain ⟨hi, lo⟩ := unhexDigit_hexDigit v
    rw [hexExpand_cons]
    simp only [unhex, hi, lo, ih]
    rw [Nat.div_add_mod]; simp

theorem hexExpand_unhex : ∀ (l bs : List Byte), unhex l = some bs → hexExpand bs = l
  | [], bs, h => by simp [unhex] at h; subst h; rfl
  | [_], bs, h => by simp [unhex] at h
  | a :: b :: rest, bs, h => by
    simp only [unhex] at h
    split at h
    · rename_i x y bs' h1 h2 h3
      cases h
      obtain ⟨l1, e1⟩ := hexDigit_of_unhexDigit h1
      obtain ⟨l2, e2⟩ := hexDigit_of_unhexDigit h2
      rw [hexExpand_cons, hexExpand_unhex rest bs' h3]
      simp only [BitVec.toNat_ofNat]
      rw [show (16 * x + y) % 2 ^ 8 / 16 = x by omega, show (16 * x + y) % 2 ^ 8 % 16 = y by omega, e1, e2]
    · cases h

/-- A digit value sent as a byte has bit 7 clear and is read back (R97). -/
theorem digitByte_spec (v : BitVec 7) : (digitByte v).toNat < 128 ∧ (digitByte v).setWidth 7 = v := by
  constructor
  · simp [digitByte]; omega
  · apply BitVec.eq_of_toNat_eq; simp [digitByte]

/-- A field reads as an option exactly when it is the option's field: the number, or nothing. -/
theorem optNat_eq_some {f : Field} {o : Option Nat} : optNat f = some o ↔ f = natField o := by
  cases f <;> cases o <;> simp [optNat, natField]

/-- A field reads as a flag that may be left out exactly when it is the flag's field, or nothing. -/
theorem optFlag_eq_some {f : Field} {o : Option Bool} : optFlag f = some o ↔ f = flagField o := by
  cases f <;> cases o <;> simp [optFlag, flagField]

end Sys2Proof
end

