-- ==== Sys2Proof/Laws/State.lean ====
section
/-! SUPPORT. One lemma per field per update of the state, each true by rfl, so that no proof unfolds a record update. -/

namespace Sys2Proof.Machine


/-! ## `raise` writes RESULT alone (R258) -/

@[simp] theorem raise_cfgd (e : Err) (s : State) : (raise e s).cfgd = s.cfgd := rfl
@[simp] theorem raise_cfg (e : Err) (s : State) : (raise e s).cfg = s.cfg := rfl
@[simp] theorem raise_panels (e : Err) (s : State) : (raise e s).panels = s.panels := rfl
@[simp] theorem raise_conn (e : Err) (s : State) : (raise e s).conn = s.conn := rfl
@[simp] theorem raise_devDone (e : Err) (s : State) : (raise e s).devDone = s.devDone := rfl
@[simp] theorem raise_devOpen (e : Err) (s : State) : (raise e s).devOpen = s.devOpen := rfl
@[simp] theorem raise_q (e : Err) (s : State) : (raise e s).q = s.q := rfl
@[simp] theorem raise_lastFp (e : Err) (s : State) : (raise e s).lastFp = s.lastFp := rfl
@[simp] theorem raise_lastTs (e : Err) (s : State) : (raise e s).lastTs = s.lastTs := rfl
@[simp] theorem raise_ovfWarned (e : Err) (s : State) : (raise e s).ovfWarned = s.ovfWarned := rfl
@[simp] theorem raise_rateWarned (e : Err) (s : State) : (raise e s).rateWarned = s.rateWarned := rfl
@[simp] theorem raise_out (e : Err) (s : State) : (raise e s).out = s.out := rfl
@[simp] theorem raise_openReq (e : Err) (s : State) : (raise e s).openReq = s.openReq := rfl
@[simp] theorem raise_warnLog (e : Err) (s : State) : (raise e s).warnLog = s.warnLog := rfl
@[simp] theorem raise_result (e : Err) (s : State) : (raise e s).result = some (.error e) := rfl
@[simp] theorem raise_value (e : Err) (s : State) : (raise e s).value = s.value := rfl
@[simp] theorem raise_schedule (e : Err) (s : State) : (raise e s).schedule = s.schedule := rfl
@[simp] theorem raise_time (e : Err) (s : State) : (raise e s).time = s.time := rfl
@[simp] theorem raise_freeCtr (e : Err) (s : State) : (raise e s).freeCtr = s.freeCtr := rfl

/-! ## `answer` writes RESULT alone -/

@[simp] theorem answer_cfgd (st : Status) (s : State) : (answer st s).cfgd = s.cfgd := rfl
@[simp] theorem answer_cfg (st : Status) (s : State) : (answer st s).cfg = s.cfg := rfl
@[simp] theorem answer_panels (st : Status) (s : State) : (answer st s).panels = s.panels := rfl
@[simp] theorem answer_conn (st : Status) (s : State) : (answer st s).conn = s.conn := rfl
@[simp] theorem answer_devDone (st : Status) (s : State) : (answer st s).devDone = s.devDone := rfl
@[simp] theorem answer_devOpen (st : Status) (s : State) : (answer st s).devOpen = s.devOpen := rfl
@[simp] theorem answer_q (st : Status) (s : State) : (answer st s).q = s.q := rfl
@[simp] theorem answer_lastFp (st : Status) (s : State) : (answer st s).lastFp = s.lastFp := rfl
@[simp] theorem answer_lastTs (st : Status) (s : State) : (answer st s).lastTs = s.lastTs := rfl
@[simp] theorem answer_ovfWarned (st : Status) (s : State) : (answer st s).ovfWarned = s.ovfWarned := rfl
@[simp] theorem answer_rateWarned (st : Status) (s : State) : (answer st s).rateWarned = s.rateWarned := rfl
@[simp] theorem answer_out (st : Status) (s : State) : (answer st s).out = s.out := rfl
@[simp] theorem answer_openReq (st : Status) (s : State) : (answer st s).openReq = s.openReq := rfl
@[simp] theorem answer_warnLog (st : Status) (s : State) : (answer st s).warnLog = s.warnLog := rfl
@[simp] theorem answer_result (st : Status) (s : State) : (answer st s).result = some (.status st) := rfl
@[simp] theorem answer_value (st : Status) (s : State) : (answer st s).value = s.value := rfl
@[simp] theorem answer_schedule (st : Status) (s : State) : (answer st s).schedule = s.schedule := rfl
@[simp] theorem answer_time (st : Status) (s : State) : (answer st s).time = s.time := rfl
@[simp] theorem answer_freeCtr (st : Status) (s : State) : (answer st s).freeCtr = s.freeCtr := rfl

/-! ## `ret` writes VALUE alone -/

@[simp] theorem ret_cfgd (v : Value) (s : State) : (ret v s).cfgd = s.cfgd := rfl
@[simp] theorem ret_cfg (v : Value) (s : State) : (ret v s).cfg = s.cfg := rfl
@[simp] theorem ret_panels (v : Value) (s : State) : (ret v s).panels = s.panels := rfl
@[simp] theorem ret_conn (v : Value) (s : State) : (ret v s).conn = s.conn := rfl
@[simp] theorem ret_devDone (v : Value) (s : State) : (ret v s).devDone = s.devDone := rfl
@[simp] theorem ret_devOpen (v : Value) (s : State) : (ret v s).devOpen = s.devOpen := rfl
@[simp] theorem ret_q (v : Value) (s : State) : (ret v s).q = s.q := rfl
@[simp] theorem ret_lastFp (v : Value) (s : State) : (ret v s).lastFp = s.lastFp := rfl
@[simp] theorem ret_lastTs (v : Value) (s : State) : (ret v s).lastTs = s.lastTs := rfl
@[simp] theorem ret_ovfWarned (v : Value) (s : State) : (ret v s).ovfWarned = s.ovfWarned := rfl
@[simp] theorem ret_rateWarned (v : Value) (s : State) : (ret v s).rateWarned = s.rateWarned := rfl
@[simp] theorem ret_out (v : Value) (s : State) : (ret v s).out = s.out := rfl
@[simp] theorem ret_openReq (v : Value) (s : State) : (ret v s).openReq = s.openReq := rfl
@[simp] theorem ret_warnLog (v : Value) (s : State) : (ret v s).warnLog = s.warnLog := rfl
@[simp] theorem ret_result (v : Value) (s : State) : (ret v s).result = s.result := rfl
@[simp] theorem ret_value (v : Value) (s : State) : (ret v s).value = v := rfl
@[simp] theorem ret_schedule (v : Value) (s : State) : (ret v s).schedule = s.schedule := rfl
@[simp] theorem ret_time (v : Value) (s : State) : (ret v s).time = s.time := rfl
@[simp] theorem ret_freeCtr (v : Value) (s : State) : (ret v s).freeCtr = s.freeCtr := rfl

/-! ## `warn` writes WARNLOG alone (R250) -/

@[simp] theorem warn_cfgd (w : Warning) (s : State) : (warn w s).cfgd = s.cfgd := rfl
@[simp] theorem warn_cfg (w : Warning) (s : State) : (warn w s).cfg = s.cfg := rfl
@[simp] theorem warn_panels (w : Warning) (s : State) : (warn w s).panels = s.panels := rfl
@[simp] theorem warn_conn (w : Warning) (s : State) : (warn w s).conn = s.conn := rfl
@[simp] theorem warn_devDone (w : Warning) (s : State) : (warn w s).devDone = s.devDone := rfl
@[simp] theorem warn_devOpen (w : Warning) (s : State) : (warn w s).devOpen = s.devOpen := rfl
@[simp] theorem warn_q (w : Warning) (s : State) : (warn w s).q = s.q := rfl
@[simp] theorem warn_lastFp (w : Warning) (s : State) : (warn w s).lastFp = s.lastFp := rfl
@[simp] theorem warn_lastTs (w : Warning) (s : State) : (warn w s).lastTs = s.lastTs := rfl
@[simp] theorem warn_ovfWarned (w : Warning) (s : State) : (warn w s).ovfWarned = s.ovfWarned := rfl
@[simp] theorem warn_rateWarned (w : Warning) (s : State) : (warn w s).rateWarned = s.rateWarned := rfl
@[simp] theorem warn_out (w : Warning) (s : State) : (warn w s).out = s.out := rfl
@[simp] theorem warn_openReq (w : Warning) (s : State) : (warn w s).openReq = s.openReq := rfl
@[simp] theorem warn_warnLog (w : Warning) (s : State) : (warn w s).warnLog = s.warnLog ++ [w] := rfl
@[simp] theorem warn_result (w : Warning) (s : State) : (warn w s).result = s.result := rfl
@[simp] theorem warn_value (w : Warning) (s : State) : (warn w s).value = s.value := rfl
@[simp] theorem warn_schedule (w : Warning) (s : State) : (warn w s).schedule = s.schedule := rfl
@[simp] theorem warn_time (w : Warning) (s : State) : (warn w s).time = s.time := rfl
@[simp] theorem warn_freeCtr (w : Warning) (s : State) : (warn w s).freeCtr = s.freeCtr := rfl

/-! ## `emitWrite` writes OUT alone (R65) -/

@[simp] theorem emitWrite_cfgd (d : Nat) (bytes : List Byte) (s : State) : (emitWrite d bytes s).cfgd = s.cfgd := rfl
@[simp] theorem emitWrite_cfg (d : Nat) (bytes : List Byte) (s : State) : (emitWrite d bytes s).cfg = s.cfg := rfl
@[simp] theorem emitWrite_panels (d : Nat) (bytes : List Byte) (s : State) : (emitWrite d bytes s).panels = s.panels := rfl
@[simp] theorem emitWrite_conn (d : Nat) (bytes : List Byte) (s : State) : (emitWrite d bytes s).conn = s.conn := rfl
@[simp] theorem emitWrite_devDone (d : Nat) (bytes : List Byte) (s : State) : (emitWrite d bytes s).devDone = s.devDone := rfl
@[simp] theorem emitWrite_devOpen (d : Nat) (bytes : List Byte) (s : State) : (emitWrite d bytes s).devOpen = s.devOpen := rfl
@[simp] theorem emitWrite_q (d : Nat) (bytes : List Byte) (s : State) : (emitWrite d bytes s).q = s.q := rfl
@[simp] theorem emitWrite_lastFp (d : Nat) (bytes : List Byte) (s : State) : (emitWrite d bytes s).lastFp = s.lastFp := rfl
@[simp] theorem emitWrite_lastTs (d : Nat) (bytes : List Byte) (s : State) : (emitWrite d bytes s).lastTs = s.lastTs := rfl
@[simp] theorem emitWrite_ovfWarned (d : Nat) (bytes : List Byte) (s : State) : (emitWrite d bytes s).ovfWarned = s.ovfWarned := rfl
@[simp] theorem emitWrite_rateWarned (d : Nat) (bytes : List Byte) (s : State) : (emitWrite d bytes s).rateWarned = s.rateWarned := rfl
@[simp] theorem emitWrite_out (d : Nat) (bytes : List Byte) (s : State) : (emitWrite d bytes s).out = s.out ++ [⟨d, bytes⟩] := rfl
@[simp] theorem emitWrite_openReq (d : Nat) (bytes : List Byte) (s : State) : (emitWrite d bytes s).openReq = s.openReq := rfl
@[simp] theorem emitWrite_warnLog (d : Nat) (bytes : List Byte) (s : State) : (emitWrite d bytes s).warnLog = s.warnLog := rfl
@[simp] theorem emitWrite_result (d : Nat) (bytes : List Byte) (s : State) : (emitWrite d bytes s).result = s.result := rfl
@[simp] theorem emitWrite_value (d : Nat) (bytes : List Byte) (s : State) : (emitWrite d bytes s).value = s.value := rfl
@[simp] theorem emitWrite_schedule (d : Nat) (bytes : List Byte) (s : State) : (emitWrite d bytes s).schedule = s.schedule := rfl
@[simp] theorem emitWrite_time (d : Nat) (bytes : List Byte) (s : State) : (emitWrite d bytes s).time = s.time := rfl
@[simp] theorem emitWrite_freeCtr (d : Nat) (bytes : List Byte) (s : State) : (emitWrite d bytes s).freeCtr = s.freeCtr := rfl

/-! ## `emitOpen` writes OPENREQ alone (R7) -/

@[simp] theorem emitOpen_cfgd (d : Nat) (s : State) : (emitOpen d s).cfgd = s.cfgd := rfl
@[simp] theorem emitOpen_cfg (d : Nat) (s : State) : (emitOpen d s).cfg = s.cfg := rfl
@[simp] theorem emitOpen_panels (d : Nat) (s : State) : (emitOpen d s).panels = s.panels := rfl
@[simp] theorem emitOpen_conn (d : Nat) (s : State) : (emitOpen d s).conn = s.conn := rfl
@[simp] theorem emitOpen_devDone (d : Nat) (s : State) : (emitOpen d s).devDone = s.devDone := rfl
@[simp] theorem emitOpen_devOpen (d : Nat) (s : State) : (emitOpen d s).devOpen = s.devOpen := rfl
@[simp] theorem emitOpen_q (d : Nat) (s : State) : (emitOpen d s).q = s.q := rfl
@[simp] theorem emitOpen_lastFp (d : Nat) (s : State) : (emitOpen d s).lastFp = s.lastFp := rfl
@[simp] theorem emitOpen_lastTs (d : Nat) (s : State) : (emitOpen d s).lastTs = s.lastTs := rfl
@[simp] theorem emitOpen_ovfWarned (d : Nat) (s : State) : (emitOpen d s).ovfWarned = s.ovfWarned := rfl
@[simp] theorem emitOpen_rateWarned (d : Nat) (s : State) : (emitOpen d s).rateWarned = s.rateWarned := rfl
@[simp] theorem emitOpen_out (d : Nat) (s : State) : (emitOpen d s).out = s.out := rfl
@[simp] theorem emitOpen_openReq (d : Nat) (s : State) : (emitOpen d s).openReq = s.openReq ++ [d] := rfl
@[simp] theorem emitOpen_warnLog (d : Nat) (s : State) : (emitOpen d s).warnLog = s.warnLog := rfl
@[simp] theorem emitOpen_result (d : Nat) (s : State) : (emitOpen d s).result = s.result := rfl
@[simp] theorem emitOpen_value (d : Nat) (s : State) : (emitOpen d s).value = s.value := rfl
@[simp] theorem emitOpen_schedule (d : Nat) (s : State) : (emitOpen d s).schedule = s.schedule := rfl
@[simp] theorem emitOpen_time (d : Nat) (s : State) : (emitOpen d s).time = s.time := rfl
@[simp] theorem emitOpen_freeCtr (d : Nat) (s : State) : (emitOpen d s).freeCtr = s.freeCtr := rfl

/-! ## `putPanel` writes the panel registers alone -/

@[simp] theorem putPanel_cfgd (r c : Nat) (p : Panel) (s : State) : (putPanel r c p s).cfgd = s.cfgd := rfl
@[simp] theorem putPanel_cfg (r c : Nat) (p : Panel) (s : State) : (putPanel r c p s).cfg = s.cfg := rfl
@[simp] theorem putPanel_panels (r c : Nat) (p : Panel) (s : State) : (putPanel r c p s).panels = s.panels.set r ((s.panels.getD r []).set c p) := rfl
@[simp] theorem putPanel_conn (r c : Nat) (p : Panel) (s : State) : (putPanel r c p s).conn = s.conn := rfl
@[simp] theorem putPanel_devDone (r c : Nat) (p : Panel) (s : State) : (putPanel r c p s).devDone = s.devDone := rfl
@[simp] theorem putPanel_devOpen (r c : Nat) (p : Panel) (s : State) : (putPanel r c p s).devOpen = s.devOpen := rfl
@[simp] theorem putPanel_q (r c : Nat) (p : Panel) (s : State) : (putPanel r c p s).q = s.q := rfl
@[simp] theorem putPanel_lastFp (r c : Nat) (p : Panel) (s : State) : (putPanel r c p s).lastFp = s.lastFp := rfl
@[simp] theorem putPanel_lastTs (r c : Nat) (p : Panel) (s : State) : (putPanel r c p s).lastTs = s.lastTs := rfl
@[simp] theorem putPanel_ovfWarned (r c : Nat) (p : Panel) (s : State) : (putPanel r c p s).ovfWarned = s.ovfWarned := rfl
@[simp] theorem putPanel_rateWarned (r c : Nat) (p : Panel) (s : State) : (putPanel r c p s).rateWarned = s.rateWarned := rfl
@[simp] theorem putPanel_out (r c : Nat) (p : Panel) (s : State) : (putPanel r c p s).out = s.out := rfl
@[simp] theorem putPanel_openReq (r c : Nat) (p : Panel) (s : State) : (putPanel r c p s).openReq = s.openReq := rfl
@[simp] theorem putPanel_warnLog (r c : Nat) (p : Panel) (s : State) : (putPanel r c p s).warnLog = s.warnLog := rfl
@[simp] theorem putPanel_result (r c : Nat) (p : Panel) (s : State) : (putPanel r c p s).result = s.result := rfl
@[simp] theorem putPanel_value (r c : Nat) (p : Panel) (s : State) : (putPanel r c p s).value = s.value := rfl
@[simp] theorem putPanel_schedule (r c : Nat) (p : Panel) (s : State) : (putPanel r c p s).schedule = s.schedule := rfl
@[simp] theorem putPanel_time (r c : Nat) (p : Panel) (s : State) : (putPanel r c p s).time = s.time := rfl
@[simp] theorem putPanel_freeCtr (r c : Nat) (p : Panel) (s : State) : (putPanel r c p s).freeCtr = s.freeCtr := rfl

/-! ## `setContent` writes the panel registers alone (R150) -/

@[simp] theorem setContent_cfgd (r c : Nat) (g : Grid) (s : State) : (setContent r c g s).cfgd = s.cfgd := rfl
@[simp] theorem setContent_cfg (r c : Nat) (g : Grid) (s : State) : (setContent r c g s).cfg = s.cfg := rfl
@[simp] theorem setContent_panels (r c : Nat) (g : Grid) (s : State) : (setContent r c g s).panels = s.panels.set r ((s.panels.getD r []).set c (.dot g)) := rfl
@[simp] theorem setContent_conn (r c : Nat) (g : Grid) (s : State) : (setContent r c g s).conn = s.conn := rfl
@[simp] theorem setContent_devDone (r c : Nat) (g : Grid) (s : State) : (setContent r c g s).devDone = s.devDone := rfl
@[simp] theorem setContent_devOpen (r c : Nat) (g : Grid) (s : State) : (setContent r c g s).devOpen = s.devOpen := rfl
@[simp] theorem setContent_q (r c : Nat) (g : Grid) (s : State) : (setContent r c g s).q = s.q := rfl
@[simp] theorem setContent_lastFp (r c : Nat) (g : Grid) (s : State) : (setContent r c g s).lastFp = s.lastFp := rfl
@[simp] theorem setContent_lastTs (r c : Nat) (g : Grid) (s : State) : (setContent r c g s).lastTs = s.lastTs := rfl
@[simp] theorem setContent_ovfWarned (r c : Nat) (g : Grid) (s : State) : (setContent r c g s).ovfWarned = s.ovfWarned := rfl
@[simp] theorem setContent_rateWarned (r c : Nat) (g : Grid) (s : State) : (setContent r c g s).rateWarned = s.rateWarned := rfl
@[simp] theorem setContent_out (r c : Nat) (g : Grid) (s : State) : (setContent r c g s).out = s.out := rfl
@[simp] theorem setContent_openReq (r c : Nat) (g : Grid) (s : State) : (setContent r c g s).openReq = s.openReq := rfl
@[simp] theorem setContent_warnLog (r c : Nat) (g : Grid) (s : State) : (setContent r c g s).warnLog = s.warnLog := rfl
@[simp] theorem setContent_result (r c : Nat) (g : Grid) (s : State) : (setContent r c g s).result = s.result := rfl
@[simp] theorem setContent_value (r c : Nat) (g : Grid) (s : State) : (setContent r c g s).value = s.value := rfl
@[simp] theorem setContent_schedule (r c : Nat) (g : Grid) (s : State) : (setContent r c g s).schedule = s.schedule := rfl
@[simp] theorem setContent_time (r c : Nat) (g : Grid) (s : State) : (setContent r c g s).time = s.time := rfl
@[simp] theorem setContent_freeCtr (r c : Nat) (g : Grid) (s : State) : (setContent r c g s).freeCtr = s.freeCtr := rfl

/-! ## `present` writes the schedule and TIME -/

@[simp] theorem present_cfgd (rest : List Code) (now : Nat) (s : State) : (present rest now s).cfgd = s.cfgd := rfl
@[simp] theorem present_cfg (rest : List Code) (now : Nat) (s : State) : (present rest now s).cfg = s.cfg := rfl
@[simp] theorem present_panels (rest : List Code) (now : Nat) (s : State) : (present rest now s).panels = s.panels := rfl
@[simp] theorem present_conn (rest : List Code) (now : Nat) (s : State) : (present rest now s).conn = s.conn := rfl
@[simp] theorem present_devDone (rest : List Code) (now : Nat) (s : State) : (present rest now s).devDone = s.devDone := rfl
@[simp] theorem present_devOpen (rest : List Code) (now : Nat) (s : State) : (present rest now s).devOpen = s.devOpen := rfl
@[simp] theorem present_q (rest : List Code) (now : Nat) (s : State) : (present rest now s).q = s.q := rfl
@[simp] theorem present_lastFp (rest : List Code) (now : Nat) (s : State) : (present rest now s).lastFp = s.lastFp := rfl
@[simp] theorem present_lastTs (rest : List Code) (now : Nat) (s : State) : (present rest now s).lastTs = s.lastTs := rfl
@[simp] theorem present_ovfWarned (rest : List Code) (now : Nat) (s : State) : (present rest now s).ovfWarned = s.ovfWarned := rfl
@[simp] theorem present_rateWarned (rest : List Code) (now : Nat) (s : State) : (present rest now s).rateWarned = s.rateWarned := rfl
@[simp] theorem present_out (rest : List Code) (now : Nat) (s : State) : (present rest now s).out = s.out := rfl
@[simp] theorem present_openReq (rest : List Code) (now : Nat) (s : State) : (present rest now s).openReq = s.openReq := rfl
@[simp] theorem present_warnLog (rest : List Code) (now : Nat) (s : State) : (present rest now s).warnLog = s.warnLog := rfl
@[simp] theorem present_result (rest : List Code) (now : Nat) (s : State) : (present rest now s).result = s.result := rfl
@[simp] theorem present_value (rest : List Code) (now : Nat) (s : State) : (present rest now s).value = s.value := rfl
@[simp] theorem present_schedule (rest : List Code) (now : Nat) (s : State) : (present rest now s).schedule = rest := rfl
@[simp] theorem present_time (rest : List Code) (now : Nat) (s : State) : (present rest now s).time = max s.time now := rfl
@[simp] theorem present_freeCtr (rest : List Code) (now : Nat) (s : State) : (present rest now s).freeCtr = s.freeCtr := rfl

/-! ## `selfDrainState` writes TIME and the free-value counter -/

@[simp] theorem selfDrainState_cfgd (s : State) : (selfDrainState s).cfgd = s.cfgd := rfl
@[simp] theorem selfDrainState_cfg (s : State) : (selfDrainState s).cfg = s.cfg := rfl
@[simp] theorem selfDrainState_panels (s : State) : (selfDrainState s).panels = s.panels := rfl
@[simp] theorem selfDrainState_conn (s : State) : (selfDrainState s).conn = s.conn := rfl
@[simp] theorem selfDrainState_devDone (s : State) : (selfDrainState s).devDone = s.devDone := rfl
@[simp] theorem selfDrainState_devOpen (s : State) : (selfDrainState s).devOpen = s.devOpen := rfl
@[simp] theorem selfDrainState_q (s : State) : (selfDrainState s).q = s.q := rfl
@[simp] theorem selfDrainState_lastFp (s : State) : (selfDrainState s).lastFp = s.lastFp := rfl
@[simp] theorem selfDrainState_lastTs (s : State) : (selfDrainState s).lastTs = s.lastTs := rfl
@[simp] theorem selfDrainState_ovfWarned (s : State) : (selfDrainState s).ovfWarned = s.ovfWarned := rfl
@[simp] theorem selfDrainState_rateWarned (s : State) : (selfDrainState s).rateWarned = s.rateWarned := rfl
@[simp] theorem selfDrainState_out (s : State) : (selfDrainState s).out = s.out := rfl
@[simp] theorem selfDrainState_openReq (s : State) : (selfDrainState s).openReq = s.openReq := rfl
@[simp] theorem selfDrainState_warnLog (s : State) : (selfDrainState s).warnLog = s.warnLog := rfl
@[simp] theorem selfDrainState_result (s : State) : (selfDrainState s).result = s.result := rfl
@[simp] theorem selfDrainState_value (s : State) : (selfDrainState s).value = s.value := rfl
@[simp] theorem selfDrainState_schedule (s : State) : (selfDrainState s).schedule = s.schedule := rfl
@[simp] theorem selfDrainState_time (s : State) : (selfDrainState s).time = selfDrainTime s := rfl
@[simp] theorem selfDrainState_freeCtr (s : State) : (selfDrainState s).freeCtr = s.freeCtr + 1 := rfl

/-! ## `buildPanels` writes the panel registers and the free-value counter (R227) -/

@[simp] theorem buildPanels_cfgd (s : State) : (buildPanels s).cfgd = s.cfgd := rfl
@[simp] theorem buildPanels_cfg (s : State) : (buildPanels s).cfg = s.cfg := rfl
@[simp] theorem buildPanels_panels (s : State) : (buildPanels s).panels = tabulate s.cfg.rows s.cfg.cols (freshPanel s.cfg s.freeCtr) := rfl
@[simp] theorem buildPanels_conn (s : State) : (buildPanels s).conn = s.conn := rfl
@[simp] theorem buildPanels_devDone (s : State) : (buildPanels s).devDone = s.devDone := rfl
@[simp] theorem buildPanels_devOpen (s : State) : (buildPanels s).devOpen = s.devOpen := rfl
@[simp] theorem buildPanels_q (s : State) : (buildPanels s).q = s.q := rfl
@[simp] theorem buildPanels_lastFp (s : State) : (buildPanels s).lastFp = s.lastFp := rfl
@[simp] theorem buildPanels_lastTs (s : State) : (buildPanels s).lastTs = s.lastTs := rfl
@[simp] theorem buildPanels_ovfWarned (s : State) : (buildPanels s).ovfWarned = s.ovfWarned := rfl
@[simp] theorem buildPanels_rateWarned (s : State) : (buildPanels s).rateWarned = s.rateWarned := rfl
@[simp] theorem buildPanels_out (s : State) : (buildPanels s).out = s.out := rfl
@[simp] theorem buildPanels_openReq (s : State) : (buildPanels s).openReq = s.openReq := rfl
@[simp] theorem buildPanels_warnLog (s : State) : (buildPanels s).warnLog = s.warnLog := rfl
@[simp] theorem buildPanels_result (s : State) : (buildPanels s).result = s.result := rfl
@[simp] theorem buildPanels_value (s : State) : (buildPanels s).value = s.value := rfl
@[simp] theorem buildPanels_schedule (s : State) : (buildPanels s).schedule = s.schedule := rfl
@[simp] theorem buildPanels_time (s : State) : (buildPanels s).time = s.time := rfl
@[simp] theorem buildPanels_freeCtr (s : State) : (buildPanels s).freeCtr = s.freeCtr + 1 := rfl

/-! ## `resetState` writes all of the spec's state (R290) -/

@[simp] theorem resetState_cfgd (s : State) : (resetState s).cfgd = State.reset.cfgd := rfl
@[simp] theorem resetState_cfg (s : State) : (resetState s).cfg = State.reset.cfg := rfl
@[simp] theorem resetState_panels (s : State) : (resetState s).panels = State.reset.panels := rfl
@[simp] theorem resetState_conn (s : State) : (resetState s).conn = State.reset.conn := rfl
@[simp] theorem resetState_devDone (s : State) : (resetState s).devDone = State.reset.devDone := rfl
@[simp] theorem resetState_devOpen (s : State) : (resetState s).devOpen = State.reset.devOpen := rfl
@[simp] theorem resetState_q (s : State) : (resetState s).q = State.reset.q := rfl
@[simp] theorem resetState_lastFp (s : State) : (resetState s).lastFp = State.reset.lastFp := rfl
@[simp] theorem resetState_lastTs (s : State) : (resetState s).lastTs = State.reset.lastTs := rfl
@[simp] theorem resetState_ovfWarned (s : State) : (resetState s).ovfWarned = State.reset.ovfWarned := rfl
@[simp] theorem resetState_rateWarned (s : State) : (resetState s).rateWarned = State.reset.rateWarned := rfl
@[simp] theorem resetState_out (s : State) : (resetState s).out = State.reset.out := rfl
@[simp] theorem resetState_openReq (s : State) : (resetState s).openReq = State.reset.openReq := rfl
@[simp] theorem resetState_warnLog (s : State) : (resetState s).warnLog = State.reset.warnLog := rfl
@[simp] theorem resetState_result (s : State) : (resetState s).result = State.reset.result := rfl
@[simp] theorem resetState_value (s : State) : (resetState s).value = State.reset.value := rfl
@[simp] theorem resetState_schedule (s : State) : (resetState s).schedule = s.schedule := rfl
@[simp] theorem resetState_time (s : State) : (resetState s).time = s.time := rfl
@[simp] theorem resetState_freeCtr (s : State) : (resetState s).freeCtr = s.freeCtr := rfl

end Sys2Proof.Machine
end

