-- ==== Sys2Proof/Laws/Ops.lean ====
section
/-! SUPPORT. For each shared operation, one lemma that says everything it can do; the proofs cite these instead of
unfolding the operation. -/

namespace Sys2Proof.Machine

/-! ## Latches (R26) -/

/-- ENQUEUE's latch: silent when set, else one W_QUEUE_FULL and the latch. -/
theorem noteOverflow_spec (s : State) :
    noteOverflow s =
      { s with ovfWarned := true, warnLog := s.warnLog ++ if s.ovfWarned then [] else [.queueFull] } := by
  by_cases h : s.ovfWarned = true
  · simp only [noteOverflow, h, if_true, List.append_nil]
    cases s; simp_all
  · simp [noteOverflow, h, warn]

/-- RECORD's latch: silent when set, else one W_RATE and the latch. -/
theorem noteRate_spec (interval : Nat) (s : State) :
    noteRate interval s =
      { s with rateWarned := true, warnLog := s.warnLog ++ if s.rateWarned then [] else [.rate interval] } := by
  by_cases h : s.rateWarned = true
  · simp only [noteRate, h, if_true, List.append_nil]
    cases s; simp_all
  · simp [noteRate, h, warn]

/-- `now - LAST_TS` is below MINI (R186). -/
def tooSoon (s : State) (now : Nat) : Bool :=
  match s.lastTs with
  | some t => now - t < s.cfg.mini
  | none => false

/-- RECORD (R186): LAST_FP, LAST_TS, and the rate advisory once. -/
theorem recordSend_spec (fp : Digest) (now : Nat) (s : State) :
    recordSend fp now s =
      { s with
        lastFp := some fp, lastTs := some now, rateWarned := s.rateWarned || tooSoon s now,
        warnLog := s.warnLog ++
          if tooSoon s now && !s.rateWarned then [.rate (now - s.lastTs.getD 0)] else [] } := by
  cases ht : s.lastTs with
  | none => simp [recordSend, tooSoon, ht]
  | some t =>
    by_cases hm : now - t < s.cfg.mini
    · cases hr : s.rateWarned <;> simp [recordSend, tooSoon, ht, hm, noteRate_spec, hr]
    · simp [recordSend, tooSoon, ht, hm]

/-- ENQUEUE (R231): queued while there is room, else dropped with the warning the first time. -/
theorem enqueueFrame_spec (f : Frame) (flush : Bool) (s : State) :
    (s.q.length < s.cfg.maxq ∧ enqueueFrame f flush s = (.queued, { s with q := s.q ++ [⟨f, flush⟩] })) ∨
      (s.cfg.maxq ≤ s.q.length ∧
        enqueueFrame f flush s =
          (.dropped,
            { s with
              ovfWarned := true, warnLog := s.warnLog ++ if s.ovfWarned then [] else [.queueFull] })) := by
  by_cases h : s.q.length < s.cfg.maxq
  · exact .inl ⟨h, by simp [enqueueFrame, h]⟩
  · exact .inr ⟨by omega, by simp [enqueueFrame, h, noteOverflow_spec]⟩

/-! ## Panel registers (R23) -/

theorem getPanel_putPanel_other {r c r' c' : Nat} (h : ¬(r' = r ∧ c' = c)) (p : Panel) (s : State) :
    getPanel (putPanel r c p s) r' c' = getPanel s r' c' := by
  simp only [getPanel, putPanel_panels, List.getElem?_set]
  by_cases hr : r = r'
  · subst hr
    have hc : c ≠ c' := fun e => h ⟨rfl, e.symm⟩
    by_cases hl : r < s.panels.length
    · simp [hl, hc]
    · simp [hl]
  · simp [hr]

theorem getPanel_putPanel_same {r c : Nat} {s : State} {p₀ : Panel} (h : getPanel s r c = some p₀) (p : Panel) :
    getPanel (putPanel r c p s) r c = some p := by
  simp only [getPanel] at h
  cases hr : s.panels[r]? with
  | none => simp [hr] at h
  | some row =>
    simp only [hr] at h
    obtain ⟨hl, rfl⟩ := List.getElem?_eq_some_iff.mp hr
    obtain ⟨hc, -⟩ := List.getElem?_eq_some_iff.mp h
    simp [getPanel, hl, hc]

/-- The update of a panel register that changes no other register and nothing but the registers: what `setContent`,
`setVert` and `setHoriz` are. -/
structure PanelWrite (r c : Nat) (s t : State) : Prop where
  rest : t = { s with panels := t.panels }
  other : ∀ r' c', ¬(r' = r ∧ c' = c) → getPanel t r' c' = getPanel s r' c'
  absent : getPanel s r c = none → t = s

theorem putPanel_absent {r c : Nat} {s : State} (h : getPanel s r c = none) (p : Panel) : putPanel r c p s = s := by
  have hp : s.panels.set r ((s.panels.getD r []).set c p) = s.panels := by
    by_cases hr : r < s.panels.length
    · have hg : s.panels[r]? = some s.panels[r] := List.getElem?_eq_getElem hr
      simp only [getPanel, hg] at h
      have hc : s.panels[r].length ≤ c := List.getElem?_eq_none_iff.mp h
      rw [List.getD_eq_getElem?_getD, hg, Option.getD_some, List.set_eq_of_length_le hc, List.set_getElem_self]
    · exact List.set_eq_of_length_le (by omega)
  cases s
  simpa [putPanel] using hp

theorem putPanel_write (r c : Nat) (p : Panel) (s : State) : PanelWrite r c s (putPanel r c p s) where
  rest := rfl
  other := fun _ _ h => getPanel_putPanel_other h p s
  absent := fun h => putPanel_absent h p

theorem panelWrite_refl (r c : Nat) (s : State) : PanelWrite r c s s := ⟨rfl, fun _ _ _ => rfl, fun _ => rfl⟩

/-- SETCONTENT (R150). -/
theorem setContent_write (r c : Nat) (g : Grid) (s : State) : PanelWrite r c s (setContent r c g s) :=
  putPanel_write r c (.dot g) s

/-- SETVERT (R155). -/
theorem setVert_write (r c : Nat) (v : Grid) (s : State) : PanelWrite r c s (setVert r c v s) := by
  unfold setVert
  split
  · exact putPanel_write r c _ s
  · exact panelWrite_refl r c s
  · exact panelWrite_refl r c s

/-- SETHORIZ (R156). -/
theorem setHoriz_write (r c : Nat) (h : Grid) (s : State) : PanelWrite r c s (setHoriz r c h s) := by
  unfold setHoriz
  split
  · exact putPanel_write r c _ s
  · exact panelWrite_refl r c s
  · exact panelWrite_refl r c s

theorem PanelWrite.trans {r c : Nat} {s t u : State} (h₁ : PanelWrite r c s t) (h₂ : PanelWrite r c t u) :
    PanelWrite r c s u where
  rest := by rw [h₂.rest, h₁.rest]
  other := fun r' c' h => (h₂.other r' c' h).trans (h₁.other r' c' h)
  absent := fun h => by
    have ht := h₁.absent h
    rw [h₂.absent (by rw [ht]; exact h), ht]

theorem setVert_seg {r c : Nat} {s : State} {digits : List (List Segs)} (h : getPanel s r c = some (.seg digits))
    (v : Grid) : getPanel (setVert r c v s) r c = some (.seg (vertDigits s.cfg.ph s.cfg.pw digits v)) := by
  simp only [setVert, h]
  exact getPanel_putPanel_same h _

theorem setHoriz_seg {r c : Nat} {s : State} {digits : List (List Segs)} (h : getPanel s r c = some (.seg digits))
    (g : Grid) : getPanel (setHoriz r c g s) r c = some (.seg (horizDigits s.cfg.ph s.cfg.pw digits g)) := by
  simp only [setHoriz, h]
  exact getPanel_putPanel_same h _

/-- SETCONTENT's write inside a fan-out. -/
theorem putSlice_write (g : Grid) (r c : Nat) (s : State) : PanelWrite r c s (putSlice g r c s) :=
  setContent_write r c _ s

/-- SETVERT and SETHORIZ inside a fan-out. -/
theorem putSegSlices_write (gv gh : Grid) (r c : Nat) (s : State) : PanelWrite r c s (putSegSlices gv gh r c s) :=
  (setVert_write r c _ s).trans (setHoriz_write r c _ _)

/-! ## Fan-out (R185, R214) -/

/-- A fan-out writes panel registers and OUT only, and issues one write per device, in list order. -/
structure FanoutFrame (s t : State) : Prop where
  rest : t = { s with out := t.out, panels := t.panels }
  writes : ∃ new : List Write, t.out = s.out ++ new ∧ new.map Write.dev = List.range s.cfg.ndev

theorem fanoutCells_rest {put : Nat → Nat → State → State} (hput : ∀ r c s, PanelWrite r c s (put r c s))
    (flush : Bool) (da : DevAddr) (cs : List (Nat × Nat)) :
    ∀ acc : State × List Byte,
      (cs.foldl (fanoutCell put flush da) acc).1 =
        { acc.1 with panels := (cs.foldl (fanoutCell put flush da) acc).1.panels } := by
  induction cs with
  | nil => exact fun acc => rfl
  | cons cell cs ih =>
    intro acc
    rw [List.foldl_cons]
    have hstep : (fanoutCell put flush da acc cell).1 =
        { acc.1 with panels := (fanoutCell put flush da acc cell).1.panels } := by
      unfold fanoutCell
      split
      · exact (hput cell.1 cell.2 acc.1).rest
      · rfl
    rw [ih (fanoutCell put flush da acc cell), hstep]

theorem fanoutDevice_rest {put : Nat → Nat → State → State} (hput : ∀ r c s, PanelWrite r c s (put r c s))
    (flush : Bool) (s : State) (d : Nat) :
    ∃ bytes, fanoutDevice put flush s d =
      { s with out := s.out ++ [⟨d, bytes⟩], panels := (fanoutDevice put flush s d).panels } := by
  refine ⟨((cells s.cfg).foldl (fanoutCell put flush (devAddrAt s.cfg d)) (s, [])).2, ?_⟩
  have h := fanoutCells_rest hput flush (devAddrAt s.cfg d) (cells s.cfg) (s, [])
  simp only [fanoutDevice, emitWrite]
  rw [h]

theorem fanoutDevices_frame {put : Nat → Nat → State → State} (hput : ∀ r c s, PanelWrite r c s (put r c s))
    (flush : Bool) (ds : List Nat) :
    ∀ s : State,
      ds.foldl (fanoutDevice put flush) s =
          { s with
            out := (ds.foldl (fanoutDevice put flush) s).out,
            panels := (ds.foldl (fanoutDevice put flush) s).panels } ∧
        ∃ new : List Write, (ds.foldl (fanoutDevice put flush) s).out = s.out ++ new ∧ new.map Write.dev = ds := by
  induction ds with
  | nil => exact fun s => ⟨rfl, [], by simp, rfl⟩
  | cons d ds ih =>
    intro s
    obtain ⟨bytes, hd⟩ := fanoutDevice_rest hput flush s d
    obtain ⟨hr, new, ho, hn⟩ := ih (fanoutDevice put flush s d)
    rw [List.foldl_cons]
    refine ⟨?_, ⟨d, bytes⟩ :: new, ?_, by simp [hn]⟩
    · rw [hr, hd]
    · rw [ho, hd]
      simp

/-- What a fan-out can do, whatever its register writes are. -/
theorem fanoutAll_frame {put : Nat → Nat → State → State} (hput : ∀ r c s, PanelWrite r c s (put r c s))
    (flush : Bool) (s : State) : FanoutFrame s (fanoutAll put flush s) := by
  obtain ⟨hr, hw⟩ := fanoutDevices_frame hput flush (List.range s.cfg.ndev) s
  exact ⟨hr, hw⟩

/-- FANOUT (R185). -/
theorem fanoutDot_frame (g : Grid) (flush : Bool) (s : State) : FanoutFrame s (fanoutDot g flush s) :=
  fanoutAll_frame (putSlice_write g) flush s

/-- SEGFANOUT (R214). -/
theorem fanoutSeg_frame (gv gh : Grid) (flush : Bool) (s : State) : FanoutFrame s (fanoutSeg gv gh flush s) :=
  fanoutAll_frame (putSegSlices_write gv gh) flush s

/-! ## The cores (R188, R215) -/

/-- The three ways out of a core: an error of VALIDATE, a duplicate, a dispatch; the first two change no state. -/
theorem sendCore_cases (f : Frame) (flush : Bool) (now : Nat) (s : State) :
    (∃ e, validateFrame s.cfg f = some e ∧ sendCore f flush now s = .error e) ∨
      (validateFrame s.cfg f = none ∧ sendCore f flush now s = .ok (.duplicate, s)) ∨
      (validateFrame s.cfg f = none ∧
        ∃ fp t, FanoutFrame s t ∧ sendCore f flush now s = .ok (.dispatched, recordSend fp now t)) := by
  cases hv : validateFrame s.cfg f with
  | some e =>
    refine .inl ⟨e, rfl, ?_⟩
    by_cases hp : s.cfg.ptype = .seg <;> simp [sendCore, hp, segCore, dotCore, hv]
  | none =>
    refine .inr ?_
    by_cases hp : s.cfg.ptype = .seg
    · by_cases hd : isDuplicate s (fingerprint [(segPrep s.cfg f).subV, (segPrep s.cfg f).subH]) = true
      · exact .inl ⟨rfl, by simp [sendCore, hp, segCore, hv, hd]⟩
      · exact .inr ⟨rfl, fingerprint [(segPrep s.cfg f).subV, (segPrep s.cfg f).subH], _, fanoutSeg_frame (segPrep s.cfg f).gv (segPrep s.cfg f).gh flush s,
          by simp [sendCore, hp, segCore, hv, hd]⟩
    · by_cases hd : isDuplicate s (fingerprint [f]) = true
      · exact .inl ⟨rfl, by simp [sendCore, hp, dotCore, hv, hd]⟩
      · exact .inr ⟨rfl, fingerprint [f], _, fanoutDot_frame (prepGrid s.cfg f) flush s, by simp [sendCore, hp, dotCore, hv, hd]⟩

/-! ## Construction and events (R225, R228 to R230, R233) -/

/-- BEGINOPEN (R228): one Open request per device, in list order; CONN is Connecting. -/
theorem beginOpen_spec (s : State) :
    beginOpen s = { s with openReq := s.openReq ++ List.range s.cfg.ndev, conn := .connecting } := by
  have h : ∀ (ds : List Nat) (t : State),
      ds.foldl (fun t d => emitOpen d t) t = { t with openReq := t.openReq ++ ds } := by
    intro ds
    induction ds with
    | nil => intro t; simp
    | cons d ds ih => intro t; rw [List.foldl_cons, ih]; simp [emitOpen]
  simp only [beginOpen, h]

/-- CFG's construction (R225). -/
theorem construct_spec (c : CfgRegs) (s : State) :
    construct c s =
      { s with
        cfgd := true, cfg := c, panels := tabulate c.rows c.cols (freshPanel c s.freeCtr), conn := .connecting,
        devDone := List.replicate c.ndev false, devOpen := List.replicate c.ndev false, q := [], lastFp := none,
        lastTs := none, ovfWarned := false, rateWarned := false, openReq := s.openReq ++ List.range c.ndev,
        freeCtr := s.freeCtr + 1 } := by
  simp only [construct, beginOpen_spec, buildPanels]

/-- DEV_OPEN_DONE (R229): ignored, or the device's bits, the warning on err, and CONN by the join. -/
theorem openDone_cases (d : Nat) (err : Bool) (s : State) :
    ((s.cfgd = false ∨ s.cfg.ndev ≤ d ∨ doneAt s d = true) ∧ openDone d err s = s) ∨
      (s.cfgd = true ∧ d < s.cfg.ndev ∧ doneAt s d = false ∧
        openDone d err s =
          { s with
            devDone := s.devDone.set d true, devOpen := s.devOpen.set d (!err),
            warnLog := s.warnLog ++ if err then [.transportOpen d] else [],
            conn := if allDone { s with devDone := s.devDone.set d true } then .connected else s.conn }) := by
  by_cases h : s.cfgd = false ∨ s.cfg.ndev ≤ d ∨ doneAt s d = true
  · exact .inl ⟨h, by simp only [openDone, if_pos h]⟩
  · refine .inr ?_
    have h1 : s.cfgd = true := by
      by_contra hc; exact h (.inl (by simpa using hc))
    have h2 : d < s.cfg.ndev := by
      by_contra hc; exact h (.inr (.inl (by omega)))
    have h3 : doneAt s d = false := by
      by_contra hc; exact h (.inr (.inr (by simpa using hc)))
    refine ⟨h1, h2, h3, ?_⟩
    have ha : ∀ w : List Warning, ∀ o : List Bool,
        allDone { s with devDone := s.devDone.set d true, devOpen := o, warnLog := w } =
          allDone { s with devDone := s.devDone.set d true } := fun _ _ => rfl
    simp only [openDone, if_neg h]
    cases err <;>
      by_cases hj : allDone { s with devDone := s.devDone.set d true } = true <;>
        simp [warn, ha, hj]

/-- DEV_WRITE_DONE (R233): a warning, or nothing. -/
theorem writeDone_spec (d : Nat) (err : Bool) (s : State) :
    writeDone d err s =
      { s with
        warnLog := s.warnLog ++ if s.cfgd = true ∧ d < s.cfg.ndev ∧ err = true then [.transportWrite d] else [] } := by
  by_cases h : s.cfgd = true ∧ d < s.cfg.ndev ∧ err = true
  · simp only [writeDone, if_pos h, warn]
  · simp only [writeDone, if_neg h, List.append_nil]

/-- DRAIN (R232): the head leaves Q; then the core's dispatch, or its duplicate, or the warning of its error. -/
theorem drainOne_cases (now : Nat) (s : State) (e : QEntry) (rest : List QEntry)
    (hq : s.q = e :: rest) :
    (∃ err, validateFrame s.cfg e.frame = some err ∧
        drainOne now s = warn (.drainValidation err) { s with q := rest }) ∨
      drainOne now s = { s with q := rest } ∨
      ∃ fp t, FanoutFrame { s with q := rest } t ∧ drainOne now s = recordSend fp now t := by
  rcases sendCore_cases e.frame e.flush now { s with q := rest } with ⟨err, hv, hc⟩ | ⟨-, hc⟩ | ⟨-, fp, t, ht, hc⟩
  · exact .inl ⟨err, hv, by simp [drainOne, hq, hc]⟩
  · exact .inr (.inl (by simp [drainOne, hq, hc]))
  · exact .inr (.inr ⟨fp, t, ht, by simp [drainOne, hq, hc]⟩)

/-- CHECKCFG (R226) lets a record pass only when every check does; the registers are `regsOf`'s. -/
theorem checkCfg_ok {r : CfgRecord} {c : CfgRegs} (h : checkCfg r = .ok c) :
    ∃ rot pt, optionsOf r = some (rot, pt) ∧ c = regsOf r rot pt ∧ r.layout ≠ [] ∧ r.layout.headD [] ≠ [] ∧
      isRagged r.layout = false ∧ r.devices ≠ [] ∧
      (1 < r.devices.length → ∀ d ∈ r.devices, d.addrs ≠ none) := by
  unfold checkCfg at h
  split at h
  · cases h
  rename_i h1
  split at h
  · cases h
  rename_i h2
  split at h
  · cases h
  rename_i h3
  split at h
  · cases h
  split at h
  · cases h
  rename_i h5
  split at h
  · cases h
  rename_i rot pt ho
  refine ⟨rot, pt, ho, by cases h; rfl, ?_, ?_, by simpa using h2, by simpa using h3, ?_⟩
  · intro e; simp [e] at h1
  · intro e; rw [e] at h1; simp at h1
  · intro hl d hd he
    refine h5 ?_
    simp only [hl, decide_true, Bool.true_and, List.any_eq_true]
    exact ⟨d, hd, by simp [he]⟩

/-! ## A panel's frame (R153, R154, R158) -/

/-- What the frame of a pixel register is when there is one: the encoder's bytes for the register's own content. -/
theorem dotPanelFrame_next {variant : PanelType} {enc : Byte → Grid → Bool → List Byte} {r c : Nat} {flush : Bool}
    {s t : State} (h : dotPanelFrame variant enc r c flush s = .next t) :
    ∃ g, s.cfgd = true ∧ s.cfg.ptype = variant ∧ getPanel s r c = some (.dot g) ∧ gridOk g = true ∧
      packOk g .columns = true ∧ t = ret (.bytes (enc (addrAt s.cfg r c) g flush)) s := by
  unfold dotPanelFrame at h
  split at h
  · split at h
    · cases h
    · cases h
    · split at h
      · cases h
      · split at h
        · cases h
        · split at h
          · cases h
          · cases h
            refine ⟨_, ‹_›, ?_, ‹_›, ?_, ?_, rfl⟩ <;> simp_all
  · cases h

/-- What the frame of a segment register is when there is one: the bytes of the register's own digits. -/
theorem segPanelFrame_next {r c : Nat} {flush : Bool} {s t : State} (h : segPanelFrame r c flush s = .next t) :
    ∃ digits, s.cfgd = true ∧ s.cfg.ptype = .seg ∧ getPanel s r c = some (.seg digits) ∧
      t = ret (.bytes (encSeg (addrAt s.cfg r c) digits flush)) s := by
  unfold segPanelFrame at h
  split at h
  · split at h
    · cases h
    · cases h
    · split at h
      · cases h
      · cases h
        refine ⟨_, ‹_›, ?_, ‹_›, rfl⟩
        simp_all
  · cases h

/-! ## The step -/

/-- The step on an operation that decodes. -/
theorem step_of_decode {s : State} {c : Code} {rest : List Code} {i : Instr} (hs : s.schedule = c :: rest)
    (hd : decode s.cfg.ptype c = .ok i) : step s = exec i (present rest (nowOf i) s) := by
  simp [step, hs, hd]

/-- What a step that answers a next state did: idle, a self-started DRAIN, a decoded operation, or an illegal op
code. -/
theorem step_cases {s t : State} (h : step s = .next t) :
    (s.schedule = [] ∧ drainEnabled s = false ∧ t = s) ∨
      (s.schedule = [] ∧ drainEnabled s = true ∧ exec (.drain (selfDrainTime s)) (selfDrainState s) = .next t) ∨
      (∃ c rest i, s.schedule = c :: rest ∧ decode s.cfg.ptype c = .ok i ∧
        exec i (present rest (nowOf i) s) = .next t) ∨
      ∃ c rest op, s.schedule = c :: rest ∧ decode s.cfg.ptype c = .error (.illegalOp op) ∧
        t = raise (.illegalOp op) (present rest 0 s) := by
  cases hs : s.schedule with
  | nil =>
    by_cases he : drainEnabled s = true
    · exact .inr (.inl ⟨rfl, he, by simpa [step, hs, he] using h⟩)
    · refine .inl ⟨rfl, by simpa using he, ?_⟩
      simp [step, hs, he] at h
      exact h.symm
  | cons c rest =>
    refine .inr (.inr ?_)
    cases hd : decode s.cfg.ptype c with
    | ok i => exact .inl ⟨c, rest, i, rfl, hd, by simpa [step, hs, hd] using h⟩
    | error e =>
      cases e with
      | illegalOp op =>
        refine .inr ⟨c, rest, op, rfl, hd, ?_⟩
        simp [step, hs, hd] at h
        exact h.symm
      | _ => simp [step, hs, hd] at h

end Sys2Proof.Machine
end

