-- ==== Sys2Proof/Laws/Fanout.lean ====
section
/-! SUPPORT. The panel registers keep their variant and size, and a fan-out in closed form: what every device is sent and
what every register holds after it (R185, R214). -/

namespace Sys2Proof.Machine

/-- One register per layout cell, each of the configured variant and size (R23, R24). -/
def Shaped (s : State) : Prop :=
  s.panels.length = s.cfg.rows ∧ ∀ row ∈ s.panels, row.length = s.cfg.cols ∧ ∀ p ∈ row, panelShaped s.cfg p

theorem putPanel_shaped {s : State} (r c : Nat) {p : Panel} (hs : Shaped s) (hp : panelShaped s.cfg p) :
    Shaped (putPanel r c p s) := by
  obtain ⟨h1, h2⟩ := hs
  refine ⟨by simp [h1], fun row hr => ?_⟩
  simp only [putPanel_panels] at hr
  by_cases hl : r < s.panels.length
  · rcases List.mem_or_eq_of_mem_set hr with h | rfl
    · exact h2 _ h
    · have hg : s.panels.getD r [] = s.panels[r] := by simp [List.getD_eq_getElem?_getD, hl]
      rw [hg]
      obtain ⟨a, b⟩ := h2 _ (List.getElem_mem hl)
      refine ⟨by simpa using a, fun q hq => ?_⟩
      rcases List.mem_or_eq_of_mem_set hq with h | rfl
      · exact b _ h
      · exact hp
  · rw [List.set_eq_of_length_le (by omega)] at hr
    exact h2 _ hr

theorem mem_of_getPanel {s : State} {r c : Nat} {p : Panel} (h : getPanel s r c = some p) :
    ∃ row ∈ s.panels, p ∈ row := by
  unfold getPanel at h
  split at h
  · rename_i row hr
    exact ⟨row, List.mem_of_getElem? hr, List.mem_of_getElem? h⟩
  · cases h

theorem getPanel_of_shaped {s : State} (hs : Shaped s) {r c : Nat} (hr : r < s.cfg.rows) (hc : c < s.cfg.cols) :
    ∃ p, getPanel s r c = some p ∧ panelShaped s.cfg p := by
  have hl : r < s.panels.length := by rw [hs.1]; exact hr
  obtain ⟨a, b⟩ := hs.2 _ (List.getElem_mem hl)
  have hl2 : c < s.panels[r].length := by rw [a]; exact hc
  exact ⟨s.panels[r][c], by simp [getPanel, hl, hl2], b _ (List.getElem_mem hl2)⟩

/-- The register BUILDPANELS creates (R227). -/
theorem freshPanel_shaped (c : CfgRegs) (draw r col : Nat) : panelShaped c (freshPanel c draw r col) := by
  unfold freshPanel
  split
  · rename_i h; exact ⟨h, tabulate_length _ _ _, fun _ hr => tabulate_row_length hr⟩
  · rename_i h; exact ⟨by simp [h], hasSize_tabulate _ _ _⟩
  · rename_i h; exact ⟨by simp [h], hasSize_tabulate _ _ _⟩

theorem setVert_shaped (v : Grid) (r c : Nat) {s : State} (hs : Shaped s) : Shaped (setVert r c v s) := by
  unfold setVert
  split
  · rename_i digits hg
    obtain ⟨row, h1, h2⟩ := mem_of_getPanel hg
    exact putPanel_shaped r c hs ⟨((hs.2 _ h1).2 _ h2).1, tabulate_length _ _ _, fun _ hr => tabulate_row_length hr⟩
  · exact hs
  · exact hs

theorem setHoriz_shaped (h : Grid) (r c : Nat) {s : State} (hs : Shaped s) : Shaped (setHoriz r c h s) := by
  unfold setHoriz
  split
  · rename_i digits hg
    obtain ⟨row, h1, h2⟩ := mem_of_getPanel hg
    exact putPanel_shaped r c hs ⟨((hs.2 _ h1).2 _ h2).1, tabulate_length _ _ _, fun _ hr => tabulate_row_length hr⟩
  · exact hs
  · exact hs

/-- What a fan-out's register write must do for the closed form: on a state of configuration `c`, keep the shape, give the
cell the content `panelOf` and so the frame `frameOf`. -/
structure WritesCells (put : Nat → Nat → State → State) (c : CfgRegs) (flush : Bool)
    (frameOf : Nat → Nat → List Byte) (panelOf : Nat → Nat → Panel) : Prop where
  write : ∀ r col s, PanelWrite r col s (put r col s)
  shaped : ∀ r col s, s.cfg = c → Shaped s → Shaped (put r col s)
  content : ∀ r col s, s.cfg = c → Shaped s → r < c.rows → col < c.cols →
    getPanel (put r col s) r col = some (panelOf r col)
  frame : ∀ r col s, s.cfg = c → r < c.rows → col < c.cols → getPanel s r col = some (panelOf r col) →
    encodeAt r col flush s = frameOf r col

variable {put : Nat → Nat → State → State} {c : CfgRegs} {flush : Bool} {frameOf : Nat → Nat → List Byte}
  {panelOf : Nat → Nat → Panel}

theorem mem_cells {c : CfgRegs} {r col : Nat} : (r, col) ∈ cells c ↔ r < c.rows ∧ col < c.cols := by
  simp [cells]

/-- One device's pass over a list of cells. -/
theorem fanoutCells_closed (w : WritesCells put c flush frameOf panelOf) (da : DevAddr) (cs : List (Nat × Nat))
    (hcs : ∀ x ∈ cs, x.1 < c.rows ∧ x.2 < c.cols) :
    ∀ (s : State) (b : List Byte), s.cfg = c → Shaped s →
      let res := cs.foldl (fanoutCell put flush da) (s, b)
      res.1 = { s with panels := res.1.panels } ∧ Shaped res.1 ∧
        res.2 = b ++ (cs.flatMap fun x => if serves da (addrAt c x.1 x.2) then frameOf x.1 x.2 else []) ∧
        ∀ r col, getPanel res.1 r col =
          if (r, col) ∈ cs ∧ serves da (addrAt c r col) = true then some (panelOf r col) else getPanel s r col := by
  induction cs with
  | nil => intro s b hc hs; simp [hs]
  | cons x xs ih =>
    intro s b hc hs
    simp only [List.foldl_cons]
    have hx := hcs x (by simp)
    by_cases hsv : serves da (addrAt c x.1 x.2) = true
    · have hcfg : (put x.1 x.2 s).cfg = c := by rw [(w.write x.1 x.2 s).rest]; exact hc
      have hg := w.content x.1 x.2 s hc hs hx.1 hx.2
      have e : fanoutCell put flush da (s, b) x = (put x.1 x.2 s, b ++ frameOf x.1 x.2) := by
        simp only [fanoutCell, hc, hsv, if_true]
        rw [w.frame _ _ _ hcfg hx.1 hx.2 hg]
      rw [e]
      obtain ⟨i1, i2, i3, i4⟩ := ih (fun y hy => hcs y (by simp [hy])) (put x.1 x.2 s) (b ++ frameOf x.1 x.2) hcfg
        (w.shaped _ _ _ hc hs)
      refine ⟨by rw [i1, (w.write x.1 x.2 s).rest], i2, by rw [i3]; simp [hsv], fun r col => ?_⟩
      rw [i4]
      by_cases hrc : r = x.1 ∧ col = x.2
      · obtain ⟨rfl, rfl⟩ := hrc
        simp only [hsv, and_true, List.mem_cons, true_or, if_true, hg]
        simp
      · rw [(w.write x.1 x.2 s).other r col hrc]
        have hne : (r, col) ≠ x := fun h => hrc (by rw [← h]; simp)
        simp [hne]
    · have e : fanoutCell put flush da (s, b) x = (s, b) := by
        simp only [fanoutCell, hc, if_neg hsv]
      rw [e]
      obtain ⟨i1, i2, i3, i4⟩ := ih (fun y hy => hcs y (by simp [hy])) s b hc hs
      refine ⟨i1, i2, by rw [i3]; simp [hsv], fun r col => ?_⟩
      rw [i4]
      by_cases hrc : (r, col) = x
      · subst hrc; simp [hsv]
      · simp [hrc]

/-- The passes of a list of devices. -/
theorem fanoutDevices_closed (w : WritesCells put c flush frameOf panelOf) (ds : List Nat) :
    ∀ s : State, s.cfg = c → Shaped s →
      let t := ds.foldl (fanoutDevice put flush) s
      t = { s with out := t.out, panels := t.panels } ∧ Shaped t ∧
        t.out = s.out ++ ds.map (fun d => ⟨d, payloadOf c frameOf d⟩) ∧
        ∀ r col, getPanel t r col =
          if (r < c.rows ∧ col < c.cols) ∧ ds.any (fun d => serves (devAddrAt c d) (addrAt c r col)) = true then
            some (panelOf r col)
          else getPanel s r col := by
  induction ds with
  | nil => intro s hc hs; simp [hs]
  | cons d ds ih =>
    intro s hc hs
    simp only [List.foldl_cons]
    obtain ⟨i1, i2, i3, i4⟩ := fanoutCells_closed w (devAddrAt c d) (cells c) (fun x hx => mem_cells.mp hx) s [] hc hs
    have e : fanoutDevice put flush s d =
        emitWrite d (payloadOf c frameOf d) ((cells c).foldl (fanoutCell put flush (devAddrAt c d)) (s, [])).1 := by
      simp only [fanoutDevice, hc]
      rw [i3]; rfl
    have hcfg : (fanoutDevice put flush s d).cfg = c := by rw [e, i1]; exact hc
    have hsh : Shaped (fanoutDevice put flush s d) := by rw [e]; exact i2
    have ho : (fanoutDevice put flush s d).out = s.out ++ [⟨d, payloadOf c frameOf d⟩] := by rw [e, i1]; rfl
    obtain ⟨j1, j2, j3, j4⟩ := ih _ hcfg hsh
    refine ⟨by rw [j1, e, i1]; rfl, j2, by rw [j3, ho]; simp, fun r col => ?_⟩
    have hp : getPanel (fanoutDevice put flush s d) r col =
        getPanel ((cells c).foldl (fanoutCell put flush (devAddrAt c d)) (s, [])).1 r col := by rw [e]; rfl
    rw [j4, hp, i4]
    simp only [mem_cells, List.any_cons, Bool.or_eq_true]
    by_cases h1 : r < c.rows ∧ col < c.cols <;>
      by_cases h2 : serves (devAddrAt c d) (addrAt c r col) = true <;> simp [h1, h2]

/-- A fan-out in closed form. -/
theorem fanoutAll_closed {s : State} (w : WritesCells put s.cfg flush frameOf panelOf) (hs : Shaped s) :
    FannedOut s (fanoutAll put flush s) frameOf panelOf := by
  obtain ⟨j1, -, j3, j4⟩ := fanoutDevices_closed w (List.range s.cfg.ndev) s rfl hs
  have key : ∀ r col, servedBy s.cfg r col = true ↔
      (r < s.cfg.rows ∧ col < s.cfg.cols) ∧
        (List.range s.cfg.ndev).any (fun d => serves (devAddrAt s.cfg d) (addrAt s.cfg r col)) = true := by
    intro r col; simp only [servedBy, Bool.and_eq_true, decide_eq_true_eq]
  refine ⟨j3, fun r col h => (j4 r col).trans (if_pos ((key r col).mp h)), fun r col h => ?_, j1⟩
  refine (j4 r col).trans (if_neg fun hh => ?_)
  rw [(key r col).mpr hh] at h
  cases h

/-- FANOUT's register writes (R185). -/
theorem putSlice_writesCells {c : CfgRegs} (hp : c.ptype ≠ .seg) (g : Grid) (flush : Bool) :
    WritesCells (putSlice g) c flush (dotFrame c g flush) (dotPanel c g) where
  write := putSlice_write g
  shaped := by
    rintro r col s rfl hs
    exact putPanel_shaped r col hs ⟨hp, hasSize_tabulate _ _ _⟩
  content := by
    rintro r col s rfl hs hr hcol
    obtain ⟨p, h, -⟩ := getPanel_of_shaped hs hr hcol
    exact getPanel_putPanel_same h _
  frame := by
    rintro r col s rfl - - hg
    simp only [encodeAt, hg, dotPanel, dotFrame]
    cases h : s.cfg.ptype <;> simp [encodePanel, h] at *

/-- SEGFANOUT's register writes (R214): the two writes together set all seven segments of every digit. -/
theorem putSegSlices_writesCells {c : CfgRegs} (hp : c.ptype = .seg) (gv gh : Grid) (flush : Bool) :
    WritesCells (putSegSlices gv gh) c flush
      (fun r col => encSeg (addrAt c r col) (segDigits c gv gh r col) flush)
      (fun r col => .seg (segDigits c gv gh r col)) where
  write := putSegSlices_write gv gh
  shaped := by
    rintro r col s - hs
    exact setHoriz_shaped _ _ _ (setVert_shaped _ _ _ hs)
  content := by
    rintro r col s rfl hs hr hcol
    obtain ⟨p, h, hsh⟩ := getPanel_of_shaped hs hr hcol
    cases p with
    | dot g => exact absurd hp hsh.1
    | seg digits =>
      have h1 := setVert_seg h (segSliceV s.cfg gv r col)
      have h2 := setHoriz_seg h1 (segSliceH s.cfg gh r col)
      have hcfg : (setVert r col (segSliceV s.cfg gv r col) s).cfg = s.cfg := by rw [(setVert_write _ _ _ s).rest]
      rw [hcfg] at h2
      simp only [putSegSlices]
      rw [h2]
      congr 2
      unfold horizDigits segDigits
      apply tabulate_congr
      intro y hy x hx
      simp [vertDigits, digitAt_tabulate, hy, hx]
  frame := by
    rintro r col s rfl - - hg
    simp [encodeAt, hg, encodePanel, hp]

end Sys2Proof.Machine
end

