-- ==== Sys2Proof/Laws/PerInstr.lean ====
section
/-! SUPPORT. The per-instruction family EncodedExactly: a row has an encoding exactly when its format is OP or WIRE; "they
have no encoding at all; they are invoked only by other rules" (30_encoding.md, of the STEP and FN rows; R90, R102). -/

namespace Sys2Proof.Laws.EncodedExactly

/-- The encoder gives a code to the OP and WIRE rows and to no other. -/
def Statement (i : Instr) : Prop := (encode i).isSome = (formatOf i == .op || formatOf i == .wire)

theorem reset : Statement .reset := rfl
theorem cfg (rec : CfgRecord) : Statement (.cfg rec) := rfl
theorem send (frame : Frame) (flush : Bool) (now : Nat) : Statement (.send frame flush now) := rfl
theorem devOpenDone (d : Nat) (err : Bool) : Statement (.devOpenDone d err) := rfl
theorem devWriteDone (d : Nat) (err : Bool) : Statement (.devWriteDone d err) := rfl
theorem drain (now : Nat) : Statement (.drain now) := rfl
theorem typeaFlush (addr : Byte) (data : List Byte) : Statement (.typeaFlush addr data) := rfl
theorem typeaBuffer (addr : Byte) (data : List Byte) : Statement (.typeaBuffer addr data) := rfl
theorem typeb (addr : Byte) (data : List Byte) : Statement (.typeb addr data) := rfl
theorem segFlush (addr : Byte) (digits : List (BitVec 7)) : Statement (.segFlush addr digits) := rfl
theorem segBuffer (addr : Byte) (digits : List (BitVec 7)) : Statement (.segBuffer addr digits) := rfl
theorem geom : Statement .geom := rfl
theorem validate (frame : Frame) : Statement (.validate frame) := rfl
theorem dedup (frame : Frame) : Statement (.dedup frame) := rfl
theorem prep (frame : Frame) : Statement (.prep frame) := rfl
theorem slice (g : Grid) (r c th tw : Nat) : Statement (.slice g r c th tw) := rfl
theorem fanout (g : Grid) (flush : Bool) : Statement (.fanout g flush) := rfl
theorem record (fp : Digest) (now : Nat) : Statement (.record fp now) := rfl
theorem dotcore (frame : Frame) (flush : Bool) (now : Nat) : Statement (.dotcore frame flush now) := rfl
theorem seggeom : Statement .seggeom := rfl
theorem segprep (frame : Frame) : Statement (.segprep frame) := rfl
theorem segfp (subV subH : Frame) : Statement (.segfp subV subH) := rfl
theorem segslice (gv gh : Grid) (r c : Nat) : Statement (.segslice gv gh r c) := rfl
theorem segfanout (gv gh : Grid) (flush : Bool) : Statement (.segfanout gv gh flush) := rfl
theorem segcore (frame : Frame) (flush : Bool) (now : Nat) : Statement (.segcore frame flush now) := rfl
theorem checkcfg (rec : CfgRecord) : Statement (.checkcfg rec) := rfl
theorem buildpanels : Statement .buildpanels := rfl
theorem beginopen : Statement .beginopen := rfl
theorem enqueue (frame : Frame) (flush : Bool) : Statement (.enqueue frame flush) := rfl
theorem rot90 (g : Grid) : Statement (.rot90 g) := rfl
theorem rotate (g : Grid) (degrees : Int) : Statement (.rotate g degrees) := rfl
theorem mirror (g : Grid) : Statement (.mirror g) := rfl
theorem invert (g : Grid) : Statement (.invert g) := rfl
theorem orient (g : Grid) : Statement (.orient g) := rfl
theorem lumabit (r g b : Byte) : Statement (.lumabit r g b) := rfl
theorem rgba2bin (buf : List Byte) (w h : Nat) : Statement (.rgba2bin buf w h) := rfl
theorem resize (buf : List Byte) (w h w2 h2 : Nat) : Statement (.resize buf w h w2 h2) := rfl
theorem resizeg (g : Grid) (w2 h2 : Nat) : Statement (.resizeg g w2 h2) := rfl
theorem packbits (g : Grid) (axis : Axis) (order : BitOrder) : Statement (.packbits g axis order) := rfl
theorem bitrev8 (v : Byte) : Statement (.bitrev8 v) := rfl
theorem fprint (frames : List Frame) : Statement (.fprint frames) := rfl
theorem flat (frame : Frame) : Statement (.flat frame) := rfl
theorem contenteq (a b : Grid) : Statement (.contenteq a b) := rfl
theorem setcontent (r c : Nat) (g : Grid) : Statement (.setcontent r c g) := rfl
theorem hexexpand (s : List Byte) : Statement (.hexexpand s) := rfl
theorem chksum (command : List Byte) : Statement (.chksum command) := rfl
theorem enca (r c : Nat) (flush : Bool) : Statement (.enca r c flush) := rfl
theorem encb (r c : Nat) (flush : Bool) : Statement (.encb r c flush) := rfl
theorem setvert (r c : Nat) (v : Grid) : Statement (.setvert r c v) := rfl
theorem sethoriz (r c : Nat) (h : Grid) : Statement (.sethoriz r c h) := rfl
theorem digitval (s : Segs) : Statement (.digitval s) := rfl
theorem encseg (r c : Nat) (flush : Bool) : Statement (.encseg r c flush) := rfl
theorem encode (r c : Nat) (flush : Bool) : Statement (.encode r c flush) := rfl

end Sys2Proof.Laws.EncodedExactly
end

