-- ==== Sys2Proof/Tests/Slice0.lean ====
section
/-! SUPPORT. The model's own tests: the checks of WellFormed, words written out from 30_encoding.md, one step per
instruction against the vectors of 95_test_vectors.md (S, A, B, G, V, K, P there), and for every statement with hypotheses
a state and operands that meet them. -/

open Sys2Proof Sys2Proof.Machine

namespace Sys2Proof.Tests

/-! ## Helpers -/

/-- The next state, if there is one. -/
def after (o : Host.Outcome State Fault Refusal) : Option State :=
  match o with
  | .next s => some s
  | .fault _ => none
  | .refused _ => none

/-- What an instruction returns to VALUE. -/
def valueAfter (i : Instr) (s : State) : Option Value := (after (exec i s)).map State.value

/-- The bytes of a state's OUT, each with its device. -/
def outAfter (i : Instr) (s : State) : Option (List (Nat × List Byte)) :=
  (after (exec i s)).map fun t => t.out.map fun w => (w.dev, w.bytes)

/-- What an instruction leaves on RESULT. -/
def resultAfter (i : Instr) (s : State) : Option (Option Result) := (after (exec i s)).map State.result

/-- A grid from 0 and 1. -/
def bits (rows : List (List Nat)) : Grid := rows.map fun row => row.map fun n => n != 0

/-- The grid of 95_test_vectors.md section 2.1. -/
def gridG : Grid := bits [[1, 0, 0], [1, 1, 0]]

/-- The grid of section 2.4. -/
def gridP : Grid := bits [[1, 0, 1, 1], [0, 0, 1, 0], [1, 1, 0, 0]]

/-- The grid of vector V3. -/
def gridV : Grid := bits [[1, 0, 0, 1, 1, 1], [0, 0, 1, 1, 0, 1], [0, 1, 0, 0, 0, 0], [1, 1, 1, 0, 1, 0]]

/-- The content of vector A1. -/
def contentA1 : Grid := bits [[1, 0, 0], [0, 0, 0], [1, 0, 0], [0, 1, 0], [1, 0, 0], [0, 0, 0], [1, 0, 1]]

/-- The all-ones frame of program P1. -/
def ones : Frame := .grid (bits [[1, 1, 1, 1], [1, 1, 1, 1]])

/-- The buffer 1, 2, ..., 16 of section 2.3. -/
def buffer16 : List Byte := (List.range 16).map fun n => BitVec.ofNat 8 (n + 1)

/-- The record of program P1 (MAXQ 2). -/
def recordP1 : CfgRecord :=
  { rot := some 0, mir := some false, inv := some false, ptype := .known .a, pw := 2, ph := 2, mini := 10,
    maxq := some 2, layout := [[1, 2]], devices := [⟨none, true⟩] }

/-- Program P1's registers. -/
def dotCfg : CfgRegs :=
  { rot := .r0, mir := false, inv := false, ptype := .a, pw := 2, ph := 2, mini := 10, maxq := 2, rows := 1, cols := 2,
    layout := [[1, 2]], ndev := 1, devAddr := [.all] }

/-- A connected Display of two dark Type A panels. -/
def dot : State :=
  { State.reset with
    cfgd := true, cfg := dotCfg, panels := [[.dot (bits [[0, 0], [0, 0]]), .dot (bits [[0, 0], [0, 0]])]],
    conn := .connected, devDone := [true], devOpen := [true], openReq := [0] }

/-- The same before its device has opened. -/
def opening : State := { dot with conn := .connecting, devDone := [false], devOpen := [false] }

/-- Program P5 (a)'s registers. -/
def segCfg : CfgRegs :=
  { dotCfg with ptype := .seg, pw := 2, ph := 1, cols := 1, layout := [[7]] }

/-- A digit from its value (bit `i` is segment `i`). -/
def digit (n : Nat) : Segs :=
  ⟨n.testBit 0, n.testBit 1, n.testBit 2, n.testBit 3, n.testBit 4, n.testBit 5, n.testBit 6⟩

/-- A connected SegmentDisplay of one panel of two digits, the second with every segment on. -/
def segs : State := { dot with cfg := segCfg, panels := [[.seg [[digit 0, digit 127]]]] }

/-- The frame of program P5 (a). -/
def frameP5 : Frame := .grid (bits [[1, 1, 0, 1], [1, 0, 0, 1], [1, 1, 0, 1]])

/-- A connected Display of one panel of a given type and content. -/
def one (pt : PanelType) (addr : Byte) (content : Grid) : State :=
  { dot with
    cfg := { dotCfg with ptype := pt, pw := colsOf content, ph := rowsOf content, cols := 1, layout := [[addr]] },
    panels := [[.dot content]] }

/-! ## WellFormed: an ill-formed term for each check, and one that passes -/

theorem test_wf_refuses :
    [Instr.typeaFlush 1 [], .typeaBuffer 1 [], .typeb 1 [], .segFlush 1 [], .segBuffer 1 [], .dedup .other,
        .prep (.grid []), .slice gridG 1 0 2 3, .slice gridG 0 0 0 1, .fanout [[]] true, .segprep (.grid [[true], []]),
        .segfp .other (.rgba []), .segfp (.rgba []) .other, .segslice [] gridG 0 0, .segslice gridG [] 0 0,
        .segfanout [] gridG true, .segfanout gridG [] true, .rot90 [], .rotate gridG 45, .rotate [] 90, .mirror [[]],
        .invert [[true], [true, false]], .orient [], .rgba2bin [0, 0, 0] 1 1, .resize [0, 0, 0, 0] 1 1 0 1,
        .resize [0, 0, 0, 0] 1 1 1 0, .resize [0, 0, 0] 1 1 1 1, .resizeg gridG 0 1, .resizeg gridG 1 0,
        .packbits (List.replicate 9 [true]) .columns .big, .packbits [List.replicate 9 true] .rows .big, .fprint [],
        .fprint [.other], .flat .other, .contenteq [] gridG, .contenteq gridG [], .setvert 0 0 [], .sethoriz 0 0 []].all
      (fun i => !wf i) = true := by decide

theorem test_wf_accepts :
    [Instr.typeb 1 [0], .segFlush 1 [0], .slice gridG 0 0 2 3, .rotate gridG (-90), .rgba2bin [0, 0, 0, 0] 1 1,
        .resize [0, 0, 0, 0] 1 1 3 1, .packbits (List.replicate 8 [true]) .columns .big, .fprint [.grid gridG, .rgba []],
        .cfg recordP1, .send .other true 0].all wf = true := by decide

/-! ## Decoding: each row's word written out from R91 to R97 -/

theorem test_decode_reset : decode .a (.record 0x00 []) = .ok .reset := rfl

theorem test_decode_cfg :
    decode .a
        (.record 0x01
          [.omitted, .flag true, .omitted, .ptype (.known .b), .nat 2, .nat 3, .nat 5, .omitted, .layout [[3, 256]],
            .devices [⟨some [3], true⟩, ⟨none, false⟩]]) =
      .ok (.cfg ⟨none, some true, none, .known .b, 2, 3, 5, none, [[3, 256]], [⟨some [3], true⟩, ⟨none, false⟩]⟩) := rfl

theorem test_decode_send :
    decode .a (.record 0x02 [.frame .other, .omitted, .nat 9]) = .ok (.send .other true 9) ∧
      decode .a (.record 0x02 [.frame (.rgba [7]), .flag false, .nat 9]) = .ok (.send (.rgba [7]) false 9) :=
  ⟨rfl, rfl⟩

theorem test_decode_events :
    decode .a (.record 0x10 [.nat 2, .flag false]) = .ok (.devOpenDone 2 false) ∧
      decode .a (.record 0x11 [.nat 2, .flag true]) = .ok (.devWriteDone 2 true) := ⟨rfl, rfl⟩

theorem test_decode_drain : decode .a (.record 0x20 [.nat 100]) = .ok (.drain 100) := rfl

/-- Vectors A1 and A2. -/
theorem test_decode_typea :
    decode .a (.wire [0x80, 0x83, 0x05, 0x55, 0x08, 0x01, 0x8F]) = .ok (.typeaFlush 5 [0x55, 0x08, 0x01]) ∧
      decode .b (.wire [0x80, 0x84, 0x05, 0x8F, 0x8F]) = .ok (.typeaBuffer 5 [0x8F]) := ⟨rfl, rfl⟩

/-- Vectors B1 and B3. -/
theorem test_decode_typeb :
    decode .b (.wire [0x02, 0x30, 0x31, 0x30, 0x31, 0x30, 0x30, 0x03, 0x65, 0x30]) = .ok (.typeb 1 [0]) ∧
      decode .b (.wire [0x02, 0x30, 0x31, 0x30, 0x32, 0x38, 0x39, 0x66, 0x66, 0x03, 0x30, 0x32]) =
        .ok (.typeb 1 [0x89, 0xFF]) := ⟨rfl, rfl⟩

/-- Vector G5. -/
theorem test_decode_segmented :
    decode .seg (.wire [0x80, 0x83, 0x07, 0x6F, 0x30, 0x8F]) = .ok (.segFlush 7 [0x6F, 0x30]) ∧
      decode .seg (.wire [0x80, 0x84, 0x07, 0x7F, 0x8F]) = .ok (.segBuffer 7 [0x7F]) := ⟨rfl, rfl⟩

/-- R100 (a), (d), R97 (bit 7), R96 (length and checksum), and records with other fields. -/
theorem test_decode_refuses :
    decode .a (.record 0x7F []) = .error (.illegalOp 0x7F) ∧
      decode .a (.record 0x00 [.nat 0]) = .error (.badRecord 0x00) ∧
      decode .a (.record 0x10 [.nat 0]) = .error (.badRecord 0x10) ∧ decode .a (.wire []) = .error .emptyFrame ∧
      decode .a (.wire [0x81]) = .error (.badStart 0x81) ∧
      decode .a (.wire [0x80, 0x85, 1, 0, 0x8F]) = .error (.badFlushByte 0x85) ∧
      decode .a (.wire [0x80, 0x83, 1]) = .error .truncated ∧
      decode .a (.wire [0x80, 0x83, 1, 0, 0x8E]) = .error (.badEnd 0x8E) ∧
      decode .a (.wire [0x80, 0x83, 1, 0x8F]) = .error .noData ∧
      decode .seg (.wire [0x80, 0x83, 1, 0x80, 0x8F]) = .error .digitBit7 ∧
      decode .b (.wire [0x02, 0x30, 0x31, 0x30, 0x31, 0x30, 0x41, 0x03, 0x65, 0x30]) = .error .badHex ∧
      decode .b (.wire [0x02, 0x30, 0x31, 0x30, 0x32, 0x30, 0x30, 0x03, 0x65, 0x30]) = .error .badLength ∧
      decode .b (.wire [0x02, 0x30, 0x31, 0x30, 0x31, 0x30, 0x30, 0x03, 0x65, 0x31]) = .error .badChecksum := by
  refine ⟨?_, ?_, ?_, ?_, ?_, ?_, ?_, ?_, ?_, ?_, ?_, ?_, ?_⟩ <;> rfl

/-- The host's rows: an op code, and the first two bytes of a frame (byte 0 in bits 15..8). -/
theorem test_table_words :
    decodeTableWord 8 0x00 = some .reset ∧ decodeTableWord 8 0x20 = some (.drain 0) ∧
      decodeTableWord 8 0x7F = none ∧ decodeTableWord 16 0x8083 = some (.typeaFlush 0 [0]) ∧
      decodeTableWord 16 0x8084 = some (.typeaBuffer 0 [0]) ∧ decodeTableWord 16 0x0200 = some (.typeb 0 [0]) := by
  refine ⟨?_, ?_, ?_, ?_, ?_, ?_⟩ <;> rfl

/-! ## Operations -/

/-- Program P1 step 1, from reset: Connecting, one Open, and the widths of the registers. -/
theorem test_cfg :
    (after (exec (.cfg recordP1) State.reset)).map (fun t => (t.cfg, t.conn, t.openReq)) =
        some (dotCfg, .connecting, [0]) ∧
      (after (exec (.cfg recordP1) State.reset)).map (fun t => (t.devDone, t.result, t.panels.map List.length)) =
        some ([false], some (.status .ok), [2]) := by decide +kernel

/-- Vector K1: PH = 9 for Type A, an address of 256, a ragged layout whose first row is empty. -/
theorem test_cfg_errors :
    resultAfter (.cfg { recordP1 with ph := 9 }) State.reset = some (some (.error .cfgBadOption)) ∧
      resultAfter (.cfg { recordP1 with layout := [[256]] }) State.reset = some (some (.error .cfgBadOption)) ∧
      resultAfter (.cfg { recordP1 with layout := [[], [1]] }) State.reset = some (some (.error .cfgEmptyLayout)) := by
  decide +kernel

/-- Program P1 step 6: a buffered frame, its write, and W_RATE(7). -/
theorem test_send_dispatches :
    (after (exec (.send (.grid (bits [[1, 0, 0, 0], [0, 0, 0, 1]])) false 107) { dot with lastTs := some 100 })).map
        (fun t => (t.out.map Write.bytes, t.warnLog, t.lastTs, t.panels)) =
      some
        ([[0x80, 0x84, 0x01, 0x02, 0x00, 0x8F, 0x80, 0x84, 0x02, 0x00, 0x01, 0x8F]], [.rate 7], some 107,
          [[.dot (bits [[1, 0], [0, 0]]), .dot (bits [[0, 0], [0, 1]])]]) := by decide +kernel

/-- Vector K2: dropped with the warning when full, and silently the second time. -/
theorem test_send_queues :
    resultAfter (.send .other true 0) State.reset = some (some (.error .notConfigured)) ∧
      (after (exec (.send .other true 0) { opening with q := [⟨ones, true⟩, ⟨ones, true⟩] })).map
          (fun t => (t.q.length, t.warnLog, t.result)) =
        some (2, [.queueFull], some (.status .dropped)) := by decide +kernel

/-- Vector K3. -/
theorem test_devOpenDone :
    (after (exec (.devOpenDone 0 true) opening)).map (fun t => (t.conn, t.devOpen, t.warnLog)) =
      some (.connected, [false], [.transportOpen 0]) := by decide

/-- Vector K4. -/
theorem test_devWriteDone :
    (after (exec (.devWriteDone 0 true) dot)).map State.warnLog = some [.transportWrite 0] ∧
      (after (exec (.devWriteDone 1 true) dot)).map State.warnLog = some [] := by decide

/-- Program P4 steps 9 and 11: an entry dispatched, an invalid one discarded with its warning. -/
theorem test_drain :
    outAfter (.drain 100) { dot with q := [⟨ones, true⟩] } =
        some [(0, [0x80, 0x83, 0x01, 0x03, 0x03, 0x8F, 0x80, 0x83, 0x02, 0x03, 0x03, 0x8F])] ∧
      (after (exec (.drain 100) { dot with q := [⟨.other, true⟩] })).map (fun t => (t.q, t.warnLog, t.result)) =
        some ([], [.drainValidation .valKind], none) := by decide +kernel

/-- Vector K5. -/
theorem test_reset :
    after (exec .reset { dot with q := [⟨ones, true⟩], ovfWarned := true, warnLog := [.queueFull] }) =
      some State.reset := by decide

/-- Vector K5: an illegal op code through the step. -/
theorem test_step_illegal :
    (after (step { State.reset with schedule := [.record 0x7F []] })).map (fun t => (t.result, t.schedule)) =
      some (some (.error (.illegalOp 0x7F)), []) := by decide

/-! ## Wire rows -/

theorem test_wire_rows :
    valueAfter (.typeaFlush 1 [3, 3]) dot = some (.bytes [0x80, 0x83, 0x01, 0x03, 0x03, 0x8F]) ∧
      valueAfter (.typeaBuffer 1 [3]) dot = some (.bytes [0x80, 0x84, 0x01, 0x03, 0x8F]) ∧
      valueAfter (.segFlush 7 [0x6F, 0x30]) dot = some (.bytes [0x80, 0x83, 0x07, 0x6F, 0x30, 0x8F]) ∧
      valueAfter (.segBuffer 7 [0x7F]) dot = some (.bytes [0x80, 0x84, 0x07, 0x7F, 0x8F]) := by decide

/-- Vector B2. -/
theorem test_wire_typeb :
    valueAfter (.typeb 5 [0x55, 0x08, 0x01]) dot =
      some (.bytes [0x02, 0x30, 0x35, 0x30, 0x33, 0x35, 0x35, 0x30, 0x38, 0x30, 0x31, 0x03, 0x30, 0x37]) := by
  decide +kernel

/-! ## Sub-steps -/

/-- Vector V2. -/
theorem test_geom :
    valueAfter .geom { dot with cfg := { dotCfg with rot := .r90 } } = some (.geom ⟨2, 2, 4, 2, 2, 4⟩) ∧
      valueAfter .geom segs = some (.geom ⟨4, 3, 4, 3, 4, 3⟩) := by decide

theorem test_seggeom : valueAfter .seggeom segs = some (.segGeom ⟨4, 2, 2, 3, 4, 2, 2, 3⟩) := by decide

/-- Vector V1. -/
theorem test_validate :
    resultAfter (.validate ones) dot = some none ∧
      resultAfter (.validate (.grid (bits [[1, 1, 1, 1], [1, 1, 1]]))) dot = some (some (.error .valShape)) ∧
      resultAfter (.validate .other) dot = some (some (.error .valKind)) := by decide

theorem test_dedup :
    (after (exec (.dedup ones) dot)).map (fun t => match t.value with | .dedup _ b => some b | _ => none) =
      some (some false) := by decide

/-- Vector V4: ROT = 90. -/
theorem test_prep :
    valueAfter (.prep (.grid (bits [[1, 0], [0, 0], [1, 1], [0, 1]]))) { dot with cfg := { dotCfg with rot := .r90 } } =
      some (.grid (bits [[0, 1, 0, 1], [1, 1, 0, 0]])) := by decide +kernel

/-- Vector V3. -/
theorem test_slice :
    valueAfter (.slice gridV 1 0 2 3) dot = some (.grid (bits [[0, 1, 0], [1, 1, 1]])) ∧
      valueAfter (.slice gridV 0 1 2 3) dot = some (.grid (bits [[1, 1, 1], [1, 0, 1]])) := by decide +kernel

/-- Program P2: a device that owns only address 2. -/
theorem test_fanout :
    outAfter (.fanout (bits [[1, 1, 1, 1], [1, 1, 1, 1]]) true) { dot with cfg := { dotCfg with devAddr := [.only [2]] } } =
      some [(0, [0x80, 0x83, 0x02, 0x03, 0x03, 0x8F])] := by decide +kernel

/-- Vector V6: exactly MINI does not warn, one tick less does. -/
theorem test_record :
    (after (exec (.record [] 110) { dot with lastTs := some 100 })).map State.warnLog = some [] ∧
      (after (exec (.record [] 109) { dot with lastTs := some 100 })).map State.warnLog = some [.rate 9] := by decide

theorem test_dotcore :
    (after (exec (.dotcore ones true 5) dot)).map (fun t => (t.value, t.lastTs)) =
      some (.status .dispatched, some 5) := by decide +kernel

/-- Program P5 (a). -/
theorem test_segprep :
    valueAfter (.segprep frameP5) segs =
      some
        (.subFrames
          ⟨.grid (bits [[1, 1, 0, 1], [1, 0, 0, 1]]), .grid (bits [[1, 0], [1, 0], [1, 0]]),
            bits [[1, 1, 0, 1], [1, 0, 0, 1]], bits [[1, 0], [1, 0], [1, 0]]⟩) := by decide +kernel

theorem test_segfp :
    valueAfter (.segfp (.rgba [1]) (.rgba [2])) dot = some (.digest (Config.fp [1, 2])) := rfl

theorem test_segslice :
    valueAfter (.segslice (bits [[1, 1, 0, 1], [1, 0, 0, 1]]) (bits [[1, 0], [1, 0], [1, 0]]) 0 0) segs =
      some (.grids (bits [[1, 1, 0, 1], [1, 0, 0, 1]]) (bits [[1, 0], [1, 0], [1, 0]])) := by decide +kernel

theorem test_segfanout :
    outAfter (.segfanout (bits [[1, 1, 0, 1], [1, 0, 0, 1]]) (bits [[1, 0], [1, 0], [1, 0]]) false) segs =
      some [(0, [0x80, 0x84, 0x07, 0x6F, 0x30, 0x8F])] := by decide +kernel

theorem test_segcore :
    outAfter (.segcore frameP5 true 0) segs = some [(0, [0x80, 0x83, 0x07, 0x6F, 0x30, 0x8F])] := by decide +kernel

theorem test_checkcfg : valueAfter (.checkcfg recordP1) dot = some (.regs dotCfg) := by decide +kernel

theorem test_buildpanels :
    (after (exec .buildpanels { segs with panels := [] })).map (fun t => t.panels.map List.length) = some [1] := by
  decide

theorem test_beginopen :
    (after (exec .beginopen { dot with cfg := { dotCfg with ndev := 2 }, openReq := [] })).map
        (fun t => (t.openReq, t.conn)) = some ([0, 1], .connecting) := by decide

theorem test_enqueue :
    (after (exec (.enqueue .other false) opening)).map (fun t => (t.q, t.value)) =
      some ([⟨.other, false⟩], .status .queued) := by decide

/-! ## Functions -/

/-- Section 2.1. -/
theorem test_rot90 :
    valueAfter (.rot90 gridG) dot = some (.grid (bits [[1, 1], [1, 0], [0, 0]])) ∧
      valueAfter (.rot90 (bits [[1], [0], [0]])) dot = some (.grid (bits [[0, 0, 1]])) := by decide +kernel

theorem test_rotate :
    valueAfter (.rotate gridG (-90)) dot = some (.grid (bits [[0, 0], [0, 1], [1, 1]])) ∧
      valueAfter (.rotate gridG 540) dot = some (.grid (bits [[0, 1, 1], [0, 0, 1]])) := by decide +kernel

theorem test_mirror : valueAfter (.mirror gridG) dot = some (.grid (bits [[0, 0, 1], [0, 1, 1]])) := by decide +kernel

theorem test_invert : valueAfter (.invert gridG) dot = some (.grid (bits [[0, 1, 1], [0, 0, 1]])) := by decide +kernel

theorem test_orient :
    valueAfter (.orient gridG) { dot with cfg := { dotCfg with rot := .r90, mir := true, inv := true } } =
      some (.grid (bits [[0, 0], [1, 0], [1, 1]])) := by decide +kernel

/-- Section 2.2: the exact tie, and one below. -/
theorem test_lumabit :
    valueAfter (.lumabit 13 163 113) dot = some (.bit true) ∧
      valueAfter (.lumabit 13 163 112) dot = some (.bit false) := by decide

theorem test_rgba2bin :
    valueAfter (.rgba2bin [0xFF, 0xFF, 0xFF, 0x00, 0x00, 0x00, 0x00, 0xFF] 2 1) dot = some (.grid (bits [[1, 0]])) := by
  decide +kernel

/-- Section 2.3. -/
theorem test_resize :
    valueAfter (.resize buffer16 2 2 3 1) dot = some (.bytes [1, 2, 3, 4, 1, 2, 3, 4, 5, 6, 7, 8]) ∧
      valueAfter (.resize buffer16 2 2 1 2) dot = some (.bytes [1, 2, 3, 4, 9, 10, 11, 12]) := by decide +kernel

theorem test_resizeg :
    valueAfter (.resizeg (bits [[1, 0, 1], [0, 1, 1]]) 2 1) dot = some (.grid (bits [[1, 0]])) := by decide +kernel

/-- Section 2.4. -/
theorem test_packbits :
    valueAfter (.packbits gridP .columns .big) dot = some (.bytes [0x05, 0x01, 0x06, 0x04]) ∧
      valueAfter (.packbits gridP .rows .little) dot = some (.bytes [0xD0, 0x40, 0x30]) := by decide +kernel

theorem test_bitrev8 : valueAfter (.bitrev8 0x12) dot = some (.byte 0x48) := by decide +kernel

theorem test_fprint :
    valueAfter (.fprint [.rgba [1], .grid (bits [[0, 1]])]) dot = some (.digest (Config.fp [1, 0, 1])) := rfl

/-- Section 2.5. -/
theorem test_flat :
    valueAfter (.flat (.grid (bits [[1, 0], [0, 1]]))) dot = some (.bytes [1, 0, 0, 1]) ∧
      valueAfter (.flat (.rgba [0xFF, 0])) dot = some (.bytes [0xFF, 0]) := by decide

theorem test_contenteq :
    valueAfter (.contenteq (bits [[1, 0]]) (bits [[1], [0]])) dot = some (.bit false) ∧
      valueAfter (.contenteq (bits [[1, 0]]) (bits [[1, 0]])) dot = some (.bit true) := by decide

theorem test_setcontent :
    (after (exec (.setcontent 0 1 (bits [[1, 1], [1, 1]])) dot)).map State.panels =
      some [[.dot (bits [[0, 0], [0, 0]]), .dot (bits [[1, 1], [1, 1]])]] := by decide

/-- Section 2.6. -/
theorem test_hexexpand :
    valueAfter (.hexexpand [0x1F, 0x00, 0xFF, 0xA9]) dot =
      some (.bytes [0x31, 0x66, 0x30, 0x30, 0x66, 0x66, 0x61, 0x39]) := by decide +kernel

/-- Section 2.6: the arithmetic sum 512, whose checksum 258 keeps its low 8 bits. -/
theorem test_chksum :
    valueAfter (.chksum [0x30, 0x31, 0x30, 0x32, 0x38, 0x39, 0x66, 0x66]) dot = some (.byte 0x02) ∧
      valueAfter (.chksum [0x30, 0x31, 0x30, 0x31, 0x30, 0x30]) dot = some (.byte 0xE0) := by decide +kernel

/-- Vectors A1 and A2. -/
theorem test_enca :
    valueAfter (.enca 0 0 true) (one .a 5 contentA1) = some (.bytes [0x80, 0x83, 0x05, 0x55, 0x08, 0x01, 0x8F]) ∧
      valueAfter (.enca 0 0 false) (one .a 5 contentA1) = some (.bytes [0x80, 0x84, 0x05, 0x55, 0x08, 0x01, 0x8F]) := by
  decide +kernel

/-- Vector B1 at PH = 8. -/
theorem test_encb :
    valueAfter (.encb 0 0 false) (one .b 1 (List.replicate 8 [false])) =
      some (.bytes [0x02, 0x30, 0x31, 0x30, 0x31, 0x30, 0x30, 0x03, 0x65, 0x30]) := by decide +kernel

/-- Vector G1: segments 1, 5, 2, 4 are set and the others left (here off in digit 0, on in digit 1). -/
theorem test_setvert :
    (after (exec (.setvert 0 0 (bits [[1, 1, 0, 0], [1, 1, 0, 0]])) segs)).map State.panels =
      some [[.seg [[digit 0x36, digit 0x49]]]] := by decide +kernel

/-- Vector G2. -/
theorem test_sethoriz :
    (after (exec (.sethoriz 0 0 (bits [[1, 0], [1, 0], [1, 0]])) segs)).map State.panels =
      some [[.seg [[digit 0x49, digit 0x36]]]] := by decide +kernel

/-- The digit shape "1" of section 2.9, and S13's vector. -/
theorem test_digitval :
    valueAfter (.digitval ⟨false, false, false, false, true, true, false⟩) dot = some (.number 0x30) ∧
      valueAfter (.digitval ⟨false, true, true, false, true, true, false⟩) dot = some (.number 54) := by decide

/-- Vector G5. -/
theorem test_encseg :
    valueAfter (.encseg 0 0 true) { segs with panels := [[.seg [[digit 0x6F, digit 0x30]]]] } =
      some (.bytes [0x80, 0x83, 0x07, 0x6F, 0x30, 0x8F]) := by decide +kernel

theorem test_encode :
    valueAfter (.encode 0 0 true) (one .a 255 [[false]]) = some (.bytes [0x80, 0x83, 0xFF, 0x00, 0x8F]) ∧
      valueAfter (.encode 0 0 true) (one .b 1 [[false]]) =
        some (.bytes [0x02, 0x30, 0x31, 0x30, 0x31, 0x30, 0x30, 0x03, 0x65, 0x30]) := by decide +kernel

/-! ## A state and operands that meet the hypotheses of each statement, one for each clause

The invariant's own states first. -/

theorem dotCfg_legal : CfgLegal dotCfg := by constructor <;> decide

theorem segCfg_legal : CfgLegal segCfg := by constructor <;> decide

theorem dot_inv : Inv dot := by
  refine ⟨fun _ => ?_, fun h => by cases h⟩
  refine ⟨dotCfg_legal, by decide, by decide, ?_, by decide, by decide, fun _ h => h, by decide, by decide, by decide,
    by decide, by decide, by decide, by decide, by decide⟩
  intro row hr
  obtain rfl : row = _ := List.mem_singleton.mp hr
  refine ⟨rfl, fun p hp => ?_⟩
  obtain rfl : p = .dot (bits [[0, 0], [0, 0]]) := by simpa using hp
  exact ⟨by decide, by decide⟩

theorem opening_inv : Inv opening := by
  refine ⟨fun _ => ?_, fun h => by cases h⟩
  refine ⟨dotCfg_legal, by decide, by decide, ?_, by decide, by decide, fun _ h => h, by decide, by decide, by decide,
    by decide, by decide, by decide, by decide, by decide⟩
  intro row hr
  obtain rfl : row = _ := List.mem_singleton.mp hr
  refine ⟨rfl, fun p hp => ?_⟩
  obtain rfl : p = .dot (bits [[0, 0], [0, 0]]) := by simpa using hp
  exact ⟨by decide, by decide⟩

theorem segs_inv : Inv segs := by
  refine ⟨fun _ => ?_, fun h => by cases h⟩
  refine ⟨segCfg_legal, by decide, by decide, ?_, by decide, by decide, fun _ h => h, by decide, by decide, by decide,
    by decide, by decide, by decide, by decide, by decide⟩
  intro row hr
  obtain rfl : row = _ := List.mem_singleton.mp hr
  refine ⟨rfl, fun p hp => ?_⟩
  obtain rfl : p = .seg [[digit 0, digit 127]] := by simpa using hp
  exact ⟨rfl, rfl, by decide⟩

theorem reset_inv : Inv State.reset := by
  refine ⟨fun h => (by cases h), fun _ => ?_⟩
  constructor <;> rfl

/-- A step that the schedule `c` starts from `s`. -/
def put (c : Code) (s : State) : State := { s with schedule := [c] }

theorem put_inv {s : State} (c : Code) (h : Inv s) : Inv (put c s) := by
  refine ⟨fun hc => ?_, fun hc => ?_⟩
  · have k := h.1 hc
    exact { legal := k.legal, opened := k.opened, panel_rows := k.panel_rows, panel_cols := k.panel_cols,
            done_len := k.done_len, open_len := k.open_len, open_done := k.open_done, joined := k.joined,
            queue_bound := k.queue_bound, recorded := k.recorded, unsent := k.unsent, write_dev := k.write_dev,
            asked := k.asked, overflow_once := k.overflow_once, rate_once := k.rate_once }
  · have k := h.2 hc
    exact { cfg := k.cfg, panels := k.panels, conn := k.conn, devDone := k.devDone, devOpen := k.devOpen, q := k.q,
            lastFp := k.lastFp, lastTs := k.lastTs, ovfWarned := k.ovfWarned, rateWarned := k.rateWarned, out := k.out,
            openReq := k.openReq, warnLog := k.warnLog }

/-- One queued frame, and the queue's room: MAXQ is 2. -/
def waiting : State := { dot with q := [⟨ones, true⟩] }

theorem waiting_inv : Inv waiting := by
  have k := dot_inv.1 rfl
  refine ⟨fun _ => ?_, fun h => by cases h⟩
  exact { legal := k.legal, opened := k.opened, panel_rows := k.panel_rows, panel_cols := k.panel_cols,
          done_len := k.done_len, open_len := k.open_len, open_done := k.open_done, joined := k.joined,
          queue_bound := by decide, recorded := k.recorded, unsent := k.unsent, write_dev := k.write_dev,
          asked := k.asked, overflow_once := k.overflow_once, rate_once := k.rate_once }

theorem not_resetNext {s : State} {c : Code} {rest : List Code} (hs : s.schedule = c :: rest)
    (hc : c ≠ .record 0x00 []) : ¬resetNext s := by
  rintro ⟨r, hr⟩
  rw [hs] at hr
  exact hc (List.cons.inj hr).1

/-- The codes the steps below run. -/
def codeCfg : Code := .record 0x01 (encodeCfg recordP1)
def codeSend : Code := .record 0x02 [.frame ones, .flag true, .nat 5]
def codeOpened : Code := .record 0x10 [.nat 0, .flag false]
def codeFailed : Code := .record 0x11 [.nat 0, .flag true]
def codeDrain : Code := .record 0x20 [.nat 5]
def codeReset : Code := .record 0x00 []

theorem witness_DecodeEncodeRoundTrip :
    (wf (.typeb 0 [0]) = true ∧ familyAgrees .b (.typeb 0 [0]) = true ∧
        encode (.typeb 0 [0]) =
          some (.wire [0x02, 0x30, 0x30, 0x30, 0x31, 0x30, 0x30, 0x03, 0x65, 0x31])) ∧
      (wf (.segFlush 7 [127]) = true ∧ familyAgrees .seg (.segFlush 7 [127]) = true ∧
        encode (.segFlush 7 [127]) = some (.wire [0x80, 0x83, 0x07, 0x7F, 0x8F])) ∧
      wf (.cfg recordP1) = true ∧ encode (.cfg recordP1) = some codeCfg := by decide +kernel

/-- A record that decodes and one that does not: CFG with an option given and one left out, and a RESET with a field. -/
theorem witness_DecodeEncodeRoundTrip_records :
    decode .a
          (.record 0x01
            [.omitted, .flag true, .omitted, .ptype .other, .nat 0, .nat 9, .nat 5, .nat 0, .layout [], .devices []]) =
        .ok (.cfg ⟨none, some true, none, .other, 0, 9, 5, some 0, [], []⟩) ∧
      RecordReads 0x02 [.frame .other, .omitted, .nat 0] (.send .other true 0) ∧
      decode .a (.record 0x00 [.nat 0]) = .error (.badRecord 0x00) := ⟨rfl, .sendDefault _ _, rfl⟩

theorem witness_WireFrameReadingIsUnique :
    decode .a (.wire [0x80, 0x83, 0x05, 0x00, 0x8F]) = .ok (.typeaFlush 5 [0]) ∧
      decode .seg (.wire [0x80, 0x84, 0x05, 0x7F, 0x8F]) = .ok (.segBuffer 5 [0x7F]) := ⟨rfl, rfl⟩

theorem witness_StepRunsDecodedInstruction :
    (put codeDrain waiting).schedule = codeDrain :: [] ∧ decode (put codeDrain waiting).cfg.ptype codeDrain = .ok (.drain 5) :=
  ⟨rfl, rfl⟩

theorem witness_StepWithEmptySchedule :
    (waiting.schedule = [] ∧ waiting.cfgd = true ∧ waiting.conn = .connected ∧ waiting.q ≠ []) ∧
      (dot.schedule = [] ∧ ¬(dot.cfgd = true ∧ dot.conn = .connected ∧ dot.q ≠ [])) := by decide

theorem witness_EmptyScheduleDrainsTheQueue :
    waiting.cfgd = true ∧ waiting.conn = .connected ∧ waiting.schedule = [] ∧ waiting.q.length = 1 := by decide

theorem witness_ProtocolErrorsChangeNoState :
    State.reset.cfgd = false ∧ dot.cfgd = true ∧ (put (.record 0x03 []) dot).schedule = .record 0x03 [] :: [] ∧
      [0x03, 0x0F, 0x12, 0x1F, 0x21, 0xFF].all (fun op : Byte => op ∉ [0x00, 0x01, 0x02, 0x10, 0x11, 0x20]) = true := by
  decide

/-- Steps of each kind: CFG, the join, an enqueue, a dispatch, a DRAIN, a failed write, RESET. -/
theorem witness_StepKeepsInvariant :
    (Inv (put codeCfg State.reset) ∧ ∃ t, step (put codeCfg State.reset) = .next t) ∧
      (Inv (put codeSend opening) ∧ ∃ t, step (put codeSend opening) = .next t) ∧
      (Inv (put codeSend dot) ∧ ∃ t, step (put codeSend dot) = .next t) ∧
      (Inv (put codeDrain waiting) ∧ ∃ t, step (put codeDrain waiting) = .next t) ∧
      (Inv (put codeSend segs) ∧ ∃ t, step (put codeSend segs) = .next t) :=
  ⟨⟨put_inv _ reset_inv, _, rfl⟩, ⟨put_inv _ opening_inv, _, rfl⟩, ⟨put_inv _ dot_inv, _, rfl⟩,
    ⟨put_inv _ waiting_inv, _, rfl⟩, put_inv _ segs_inv, _, rfl⟩

theorem witness_ConfigurationNeverRewritten :
    ∃ t, step (put codeCfg dot) = .next t ∧ (put codeCfg dot).cfgd = true ∧ t.cfgd = true := ⟨_, rfl, rfl, rfl⟩

/-- Each arrow: none, Disconnected to Connecting, Connecting to Connected, and RESET. -/
theorem witness_ConnectionFollowsItsArrows :
    (Inv (put codeFailed dot) ∧ ∃ t, step (put codeFailed dot) = .next t ∧ t.conn = .connected) ∧
      (Inv (put codeCfg State.reset) ∧ ∃ t, step (put codeCfg State.reset) = .next t ∧ t.conn = .connecting) ∧
      (Inv (put codeOpened opening) ∧ ∃ t, step (put codeOpened opening) = .next t ∧ t.conn = .connected) ∧
      (Inv (put codeReset dot) ∧ ∃ t, step (put codeReset dot) = .next t ∧ t.conn = .disconnected) :=
  ⟨⟨put_inv _ dot_inv, _, rfl, rfl⟩, ⟨put_inv _ reset_inv, _, rfl, rfl⟩, ⟨put_inv _ opening_inv, _, rfl, rfl⟩,
    put_inv _ dot_inv, _, rfl, rfl⟩

/-- A state with both latches set. -/
def warned : State :=
  { dot with ovfWarned := true, rateWarned := true, warnLog := [.queueFull, .rate 3] }

theorem warned_inv : Inv warned := by
  have k := dot_inv.1 rfl
  refine ⟨fun _ => ?_, fun h => by cases h⟩
  exact { legal := k.legal, opened := k.opened, panel_rows := k.panel_rows, panel_cols := k.panel_cols,
          done_len := k.done_len, open_len := k.open_len, open_done := k.open_done, joined := k.joined,
          queue_bound := k.queue_bound, recorded := k.recorded, unsent := k.unsent, write_dev := k.write_dev,
          asked := k.asked, overflow_once := by decide, rate_once := by decide }

theorem witness_LatchesClearedOnlyByReset :
    Inv (put codeSend warned) ∧ (∃ t, step (put codeSend warned) = .next t) ∧ ¬resetNext (put codeSend warned) ∧
      warned.ovfWarned = true ∧ warned.rateWarned = true :=
  ⟨put_inv _ warned_inv, ⟨_, rfl⟩, not_resetNext rfl (by decide), rfl, rfl⟩

/-- A step with writes, one with Open requests, one with a warning. -/
theorem witness_TracesOnlyGrow :
    (∃ t, step (put codeSend dot) = .next t ∧ t.out.length = 1 ∧ ¬resetNext (put codeSend dot)) ∧
      (∃ t, step (put codeCfg State.reset) = .next t ∧ t.openReq = [0] ∧ ¬resetNext (put codeCfg State.reset)) ∧
      ∃ t, step (put codeFailed dot) = .next t ∧ t.warnLog = [.transportWrite 0] ∧ ¬resetNext (put codeFailed dot) :=
  ⟨⟨_, rfl, by decide +kernel, not_resetNext rfl (by decide)⟩, ⟨_, rfl, rfl, not_resetNext rfl (by decide)⟩, _, rfl, rfl,
    not_resetNext rfl (by decide)⟩

/-- The queue unchanged, one entry appended, the oldest taken. -/
theorem witness_QueueMovesFirstInFirstOut :
    (Inv (put codeSend dot) ∧ ¬resetNext (put codeSend dot) ∧ ∃ t, step (put codeSend dot) = .next t) ∧
      (Inv (put codeSend opening) ∧ ¬resetNext (put codeSend opening) ∧
        ∃ t, step (put codeSend opening) = .next t ∧ t.q = [⟨ones, true⟩]) ∧
      (Inv (put codeDrain waiting) ∧ ¬resetNext (put codeDrain waiting) ∧
        ∃ t, step (put codeDrain waiting) = .next t ∧ t.q = []) :=
  ⟨⟨put_inv _ dot_inv, not_resetNext rfl (by decide), _, rfl⟩,
    ⟨put_inv _ opening_inv, not_resetNext rfl (by decide), _, rfl, rfl⟩, put_inv _ waiting_inv,
    not_resetNext rfl (by decide), _, rfl, by decide +kernel⟩

theorem witness_OneWritePerDeviceInOrder :
    ∃ t, step (put codeSend dot) = .next t ∧ t.out.map Write.dev = [0] ∧ ¬resetNext (put codeSend dot) :=
  ⟨_, rfl, by decide +kernel, not_resetNext rfl (by decide)⟩

theorem witness_CfgConstructsDisplay :
    dot.cfgd = true ∧
      (State.reset.cfgd = false ∧ checkCfg { recordP1 with devices := [] } = .error .cfgEmptyDevices) ∧
      (State.reset.cfgd = false ∧ checkCfg recordP1 = .ok dotCfg) := ⟨rfl, ⟨rfl, rfl⟩, rfl, rfl⟩

/-- Checks 1 to 5 of R226 pass. -/
def Passes (r : CfgRecord) : Prop :=
  ¬emptyLayout r ∧ ¬raggedLayout r ∧ r.devices ≠ [] ∧ (¬∃ d, badDescriptor r d) ∧ ¬∃ d, missingAddresses r d

theorem one_row {r : CfgRecord} {row : List Int} (h : r.layout = [row]) (hne : row ≠ []) :
    ¬emptyLayout r ∧ ¬raggedLayout r := by
  constructor
  · rintro (he | he) <;> rw [h] at he
    · cases he
    · exact hne (by simpa using he)
  · rintro ⟨f, x, hf, hm, hn⟩
    rw [h] at hf hm
    cases hf
    obtain rfl : x = row := by simpa using hm
    exact hn rfl

theorem passes_of {r : CfgRecord} {row : List Int} (h : r.layout = [row]) (hne : row ≠ [])
    (hd : r.devices = [⟨none, true⟩]) : Passes r := by
  obtain ⟨h1, h2⟩ := one_row h hne
  refine ⟨h1, h2, by rw [hd]; decide, ?_, ?_⟩
  · rintro ⟨d, e, he, hk⟩
    rw [hd] at he
    obtain rfl : e = ⟨none, true⟩ := by simpa using List.mem_of_getElem? he
    cases hk
  · rintro ⟨d, hl, -⟩
    rw [hd] at hl
    exact absurd hl (by decide)

/-- Each check's error at its boundary, and two records that pass them all. -/
theorem witness_ConfigurationChecksInOrder :
    (emptyLayout { recordP1 with layout := [[]] } ∧ emptyLayout { recordP1 with layout := [] }) ∧
      (¬emptyLayout { recordP1 with layout := [[1], []] } ∧ raggedLayout { recordP1 with layout := [[1], []] }) ∧
      (let r := { recordP1 with devices := [] }
       ¬emptyLayout r ∧ ¬raggedLayout r ∧ r.devices = []) ∧
      (let r := { recordP1 with devices := [⟨none, false⟩] }
       ¬emptyLayout r ∧ ¬raggedLayout r ∧ ∃ d, badDescriptor r d) ∧
      (let r := { recordP1 with devices := [⟨some [], true⟩, ⟨none, true⟩] }
       ¬emptyLayout r ∧ ¬raggedLayout r ∧ (¬∃ d, badDescriptor r d) ∧ ∃ d, missingAddresses r d) ∧
      (∀ r ∈ [{ recordP1 with ph := 9 }, { recordP1 with layout := [[256]] }, { recordP1 with layout := [[-1]] },
          { recordP1 with rot := some 45 }, { recordP1 with pw := 0 }, { recordP1 with ph := 0 },
          { recordP1 with ptype := .other }], Passes r ∧ badOption r) ∧
      ∀ r ∈ [{ recordP1 with ph := 8, layout := [[0, 255]] }, { recordP1 with rot := none, ptype := .known .seg, ph := 9 }],
        Passes r ∧ ¬badOption r := by
  have hp : ∀ {r : CfgRecord}, r.layout = [[1, 2]] → ¬emptyLayout r ∧ ¬raggedLayout r := fun h =>
    one_row h (by decide)
  refine ⟨⟨.inr rfl, .inl rfl⟩, ⟨?_, [1], [], rfl, by decide, by decide⟩, ⟨(hp rfl).1, (hp rfl).2, rfl⟩,
    ⟨(hp rfl).1, (hp rfl).2, 0, _, rfl, rfl⟩, ⟨(hp rfl).1, (hp rfl).2, ?_, 1, by decide, _, rfl, rfl⟩, ?_, ?_⟩
  · rintro (h | h) <;> cases h
  · rintro ⟨d, e, he, hk⟩
    have hm := List.mem_of_getElem? he
    simp only [List.mem_cons, List.not_mem_nil, or_false] at hm
    rcases hm with rfl | rfl <;> cases hk
  · intro r hr
    simp only [List.mem_cons, List.not_mem_nil, or_false] at hr
    rcases hr with rfl | rfl | rfl | rfl | rfl | rfl | rfl
    · exact ⟨passes_of rfl (by decide) rfl, .inr (.inr (.inr (.inr (.inl ⟨.inl rfl, by decide⟩))))⟩
    · exact ⟨passes_of rfl (by decide) rfl,
        .inr (.inr (.inr (.inr (.inr ⟨[256], by decide, 256, by decide, by decide⟩))))⟩
    · exact ⟨passes_of rfl (by decide) rfl, .inr (.inr (.inr (.inr (.inr ⟨[-1], by decide, -1, by decide, by decide⟩))))⟩
    · exact ⟨passes_of rfl (by decide) rfl, .inl ⟨45, rfl, by decide⟩⟩
    · exact ⟨passes_of rfl (by decide) rfl, .inr (.inr (.inl (by decide)))⟩
    · exact ⟨passes_of rfl (by decide) rfl, .inr (.inr (.inr (.inl (by decide))))⟩
    · exact ⟨passes_of rfl (by decide) rfl, .inr (.inl rfl)⟩
  · intro r hr
    simp only [List.mem_cons, List.not_mem_nil, or_false] at hr
    rcases hr with rfl | rfl
    · refine ⟨passes_of rfl (by decide) rfl, ?_⟩
      rintro (⟨d, h, hn⟩ | h | h | h | ⟨-, h⟩ | ⟨row, hrow, a, ha, h⟩)
      · cases h; exact hn (by decide)
      · cases h
      · exact absurd h (by decide)
      · exact absurd h (by decide)
      · exact absurd h (by decide)
      · obtain rfl : row = [0, 255] := by simpa using hrow
        have : a = 0 ∨ a = 255 := by simpa using ha
        omega
    · refine ⟨passes_of rfl (by decide) rfl, ?_⟩
      rintro (⟨d, h, hn⟩ | h | h | h | ⟨h | h, -⟩ | ⟨row, hrow, a, ha, h⟩)
      · cases h
      · cases h
      · exact absurd h (by decide)
      · exact absurd h (by decide)
      · cases h
      · cases h
      · obtain rfl : row = [1, 2] := by simpa [recordP1] using hrow
        have : a = 1 ∨ a = 2 := by simpa using ha
        omega

theorem witness_PanelsCreatedAndOpensRequested : dot.cfgd = true ∧ segs.cfgd = true := ⟨rfl, rfl⟩

/-- Room for one more, and none (MAXQ 2, and MAXQ 0), in a block that is not connected. -/
theorem witness_SendBeforeConnectionIsQueued :
    let room := { opening with q := [⟨ones, true⟩] }
    let full := { opening with q := [⟨ones, true⟩, ⟨.other, false⟩] }
    let noRoom := { opening with cfg := { dotCfg with maxq := 0 } }
    (room.cfgd = true ∧ room.q.length + 1 = room.cfg.maxq ∧ room.conn ≠ .connected) ∧
      (full.cfgd = true ∧ full.cfg.maxq = full.q.length ∧ full.conn ≠ .connected) ∧
      noRoom.cfgd = true ∧ noRoom.cfg.maxq ≤ noRoom.q.length := by decide

theorem witness_WrongShapesAreRejected :
    dot.cfgd = true ∧ dot.conn = .connected ∧ (geomOf dot.cfg).width = 4 ∧ (geomOf dot.cfg).height = 2 ∧
      (List.replicate 32 (0 : Byte)).length = 4 * 2 * 4 := by decide

theorem witness_DispatchedSendFansOut :
    Inv dot ∧ dot.cfgd = true ∧ dot.conn = .connected ∧ dot.cfg.ptype ≠ .seg ∧ validateFrame dot.cfg ones = none ∧
      dot.lastFp ≠ some (fingerprint [ones]) :=
  ⟨dot_inv, rfl, rfl, by decide, by decide, fun h => nomatch h⟩

theorem witness_DispatchedSegmentSendFansOut :
    Inv segs ∧ segs.cfgd = true ∧ segs.conn = .connected ∧ segs.cfg.ptype = .seg ∧
      validateFrame segs.cfg frameP5 = none ∧
      segs.lastFp ≠ some (fingerprint [(segPrep segs.cfg frameP5).subV, (segPrep segs.cfg frameP5).subH]) :=
  ⟨segs_inv, rfl, rfl, rfl, by decide, fun h => nomatch h⟩

theorem witness_FanoutWritesServedPanels :
    (Inv dot ∧ dot.cfgd = true ∧ dot.cfg.ptype ≠ .seg ∧
        hasSize (bits [[1, 1, 1, 1], [1, 1, 1, 1]]) (geomOf dot.cfg).devH (geomOf dot.cfg).devW = true) ∧
      (Inv segs ∧ segs.cfgd = true ∧ segs.cfg.ptype = .seg ∧
        hasSize (bits [[1, 1, 0, 1], [1, 0, 0, 1]]) (segGeomOf segs.cfg).vh (segGeomOf segs.cfg).vw = true ∧
        hasSize (bits [[1, 0], [1, 0], [1, 0]]) (segGeomOf segs.cfg).hh (segGeomOf segs.cfg).hw = true) :=
  ⟨⟨dot_inv, rfl, by decide, by decide⟩, segs_inv, rfl, rfl, by decide, by decide⟩

theorem witness_PayloadLengthCountsServedCells :
    1 ≤ dotCfg.ph ∧ dotCfg.ptype = .a ∧ ({ dotCfg with ptype := .b, ph := 1 } : CfgRegs).ptype = .b ∧
      (payloadOf dotCfg (dotFrame dotCfg (bits [[1, 1, 1, 1], [1, 1, 1, 1]]) true) 0).length = 12 := by decide +kernel

/-- A Display that has just sent `ones`, and one that has just sent P5's frame. -/
theorem witness_DuplicateFrameIsNotDispatched :
    let sent := { dot with lastFp := some (fingerprint [ones]) }
    let sentSeg := { segs with
      lastFp := some (fingerprint [(segPrep segCfg frameP5).subV, (segPrep segCfg frameP5).subH]) }
    (sent.cfgd = true ∧ sent.cfg.ptype ≠ .seg ∧ validateFrame sent.cfg ones = none ∧
        sent.lastFp = some (fingerprint [ones]) ∧ sent.conn = .connected) ∧
      (sentSeg.cfgd = true ∧ sentSeg.cfg.ptype = .seg ∧ validateFrame sentSeg.cfg frameP5 = none ∧
        sentSeg.lastFp =
          some (fingerprint [(segPrep sentSeg.cfg frameP5).subV, (segPrep sentSeg.cfg frameP5).subH]) ∧
        sentSeg.conn = .connected) :=
  ⟨⟨rfl, by decide, by decide, rfl, rfl⟩, rfl, rfl, by decide, rfl, rfl⟩

theorem witness_SameFrameTwiceDispatchesOnce :
    dot.cfgd = true ∧ dot.conn = .connected ∧ validateFrame dot.cfg ones = none ∧
      ∃ t, exec (.send ones false 5) dot = .next t ∧ t.out.length = 1 :=
  ⟨rfl, rfl, by decide, _, rfl, by decide +kernel⟩

/-- Nothing sent yet; an interval of exactly MINI; one tick less, and none at all, with the latch set and clear. -/
theorem witness_RecordReportsRateOnce :
    let sent := { dot with lastTs := some 100 }
    let told := { sent with rateWarned := true }
    dot.cfgd = true ∧ dot.lastTs = none ∧ (sent.cfgd = true ∧ sent.lastTs = some 100 ∧ 100 + sent.cfg.mini ≤ 110) ∧
      (told.cfgd = true ∧ told.lastTs = some 100 ∧ 100 ≤ 109 ∧ 109 < 100 + told.cfg.mini ∧ told.rateWarned = true) ∧
      (sent.lastTs = some 100 ∧ 100 ≤ 100 ∧ 100 < 100 + sent.cfg.mini ∧ sent.rateWarned = false) := by decide

theorem witness_OpenCompletionJoins :
    Inv State.reset ∧ State.reset.cfgd = false ∧ Inv opening ∧ opening.cfg.ndev = 1 ∧ Inv dot ∧ doneAt dot 0 = true ∧
      opening.cfgd = true ∧ 0 < opening.cfg.ndev ∧ doneAt opening 0 = false :=
  ⟨reset_inv, rfl, opening_inv, rfl, dot_inv, rfl, rfl, by decide, rfl⟩

theorem witness_WriteCompletionOnlyWarns :
    dot.cfgd = true ∧ 0 < dot.cfg.ndev ∧ dot.cfg.ndev ≤ 1 ∧ State.reset.cfgd = false := by decide

theorem witness_DrainTakesTheOldestFrame :
    (¬(dot.cfgd = true ∧ dot.conn = .connected ∧ dot.q ≠ [])) ∧
      (waiting.cfgd = true ∧ waiting.conn = .connected ∧ waiting.q = ⟨ones, true⟩ :: [] ∧
        validateFrame waiting.cfg ones = none) ∧
      validateFrame waiting.cfg .other = some .valKind := by decide

theorem witness_GeometryRegisterValues :
    let turned := { dot with cfg := { dotCfg with rot := .r270 } }
    (turned.cfgd = true ∧ turned.cfg.rot = .r270) ∧ segs.cfgd = true ∧ ¬(segs.cfg.rot = .r90 ∨ segs.cfg.rot = .r270) := by
  decide

theorem witness_FingerprintsOfFrames : frameOk (.grid [[true]]) = true ∧ frameOk (.rgba []) = true := by decide

theorem witness_PrepGivesTheDeviceGrid :
    dot.cfgd = true ∧ CfgLegal dot.cfg ∧ validateFrame dot.cfg ones = none ∧
      validateFrame dot.cfg (.rgba (List.replicate 32 0)) = none := ⟨rfl, dotCfg_legal, by decide, by decide⟩

theorem witness_SegPrepGivesTheSubFrames :
    segs.cfgd = true ∧ CfgLegal segs.cfg ∧ segs.cfg.ptype = .seg ∧ validateFrame segs.cfg frameP5 = none ∧
      validateFrame segs.cfg (.rgba (List.replicate 48 0)) = none := ⟨rfl, segCfg_legal, rfl, by decide, by decide⟩

theorem witness_SliceRegions :
    sliceOk gridV 1 1 2 3 = true ∧ segs.cfgd = true ∧
      sliceOk (bits [[1, 1, 0, 1], [1, 0, 0, 1]]) 0 0 (2 * segs.cfg.ph) (2 * segs.cfg.pw) = true ∧
      sliceOk (bits [[1, 0], [1, 0], [1, 0]]) 0 0 (3 * segs.cfg.ph) segs.cfg.pw = true := by decide

theorem witness_QuarterTurnPixels : gridOk [[true]] = true ∧ gridOk gridG = true := by decide

/-- An angle that is refused, and one of each quadrant. -/
theorem witness_RotateClosedForms :
    gridOk gridG = true ∧ (45 : Int) % 90 ≠ 0 ∧ (-360 : Int) % 360 = 0 ∧ (450 : Int) % 360 = 90 ∧
      (-180 : Int) % 360 = 180 ∧ (-90 : Int) % 360 = 270 := by decide

theorem witness_MirrorAndInvertPixels : gridOk gridG = true ∧ gridOk [[false]] = true := by decide

theorem witness_OrientationPipeline :
    let turned := { dot with cfg := { dotCfg with rot := .r90, mir := true, inv := true } }
    gridOk gridG = true ∧ (turned.cfgd = true ∧ turned.cfg.rot = .r90 ∧ turned.cfg.mir = true ∧ turned.cfg.inv = true) ∧
      dot.cfgd = true ∧ dot.cfg.rot = .r0 ∧ dot.cfg.mir = false ∧ dot.cfg.inv = false := by decide

theorem witness_RgbaToBinaryPixels : rgbaOk [0, 0, 0, 0] 1 1 = true ∧ rgbaOk buffer16 2 2 = true := by decide

theorem witness_ResizeSamplesNearest :
    rgbaOk buffer16 2 2 = true ∧ 1 ≤ 1 ∧ 1 ≤ 3 ∧ rgbaOk [0, 0, 0, 0] 1 1 = true := by decide

theorem witness_ResizeGridPixels : gridOk [[true]] = true ∧ gridOk gridP = true ∧ colsOf gridP = 4 ∧ rowsOf gridP = 3 := by
  decide

theorem witness_ThresholdCommutesWithResize : rgbaOk buffer16 4 1 = true ∧ 1 ≤ 1 := by decide

/-- Groups of 9 and of 8, on both axes. -/
theorem witness_PackBitsPlacesEveryPixel :
    gridOk (List.replicate 9 [true]) = true ∧ rowsOf (List.replicate 9 [true]) = 9 ∧
      gridOk (List.replicate 8 [true]) = true ∧ rowsOf (List.replicate 8 [true]) = 8 ∧
      gridOk [List.replicate 9 true] = true ∧ colsOf [List.replicate 9 true] = 9 ∧
      gridOk [List.replicate 8 true] = true ∧ colsOf [List.replicate 8 true] = 8 := by decide

theorem witness_FlattenAndFingerprint :
    gridOk [[true]] = true ∧ [Frame.grid [[true]], .rgba []] ≠ [] ∧
      ∀ f ∈ [Frame.grid [[true]], .rgba []], frameOk f = true := by decide

theorem witness_ContentEqualityIsEquality : gridOk [[true, false]] = true ∧ gridOk [[true], [false]] = true := by decide

theorem witness_HexExpansionAndChecksum :
    ([0x09, 0xAF] : List Byte)[0]? = some 0x09 ∧ ([0x09, 0xAF] : List Byte)[1]? = some 0xAF := by decide

theorem witness_SetContentReplacesOneRegister :
    dot.cfgd = true ∧ dot.cfg.ptype ≠ .seg ∧ getPanel dot 0 1 = some (.dot (bits [[0, 0], [0, 0]])) := by decide

theorem witness_SegmentWritesTouchTheirSegments :
    segs.cfgd = true ∧ segs.cfg.ptype = .seg ∧ getPanel segs 0 0 = some (.seg [[digit 0, digit 127]]) ∧
      hasSize (bits [[1, 1, 0, 0], [1, 1, 0, 0]]) (2 * segs.cfg.ph) (2 * segs.cfg.pw) = true ∧
      hasSize (bits [[1, 0], [1, 0], [1, 0]]) (3 * segs.cfg.ph) segs.cfg.pw = true := by decide

/-- A register of 8 rows, the most a DotPanel has. -/
theorem witness_TypeAFrameLayout :
    let s := one .a 255 (List.replicate 8 [true])
    s.cfgd = true ∧ s.cfg.ptype = .a ∧ getPanel s 0 0 = some (.dot (List.replicate 8 [true])) ∧
      hasSize (List.replicate 8 [true]) s.cfg.ph s.cfg.pw = true ∧ 1 ≤ s.cfg.pw ∧ 1 ≤ s.cfg.ph ∧ s.cfg.ph ≤ 8 := by decide

theorem witness_TypeBFrameLayout :
    let s := one .b 255 (List.replicate 8 [true])
    s.cfgd = true ∧ s.cfg.ptype = .b ∧ getPanel s 0 0 = some (.dot (List.replicate 8 [true])) ∧
      hasSize (List.replicate 8 [true]) s.cfg.ph s.cfg.pw = true ∧ 1 ≤ s.cfg.pw ∧ 1 ≤ s.cfg.ph ∧ s.cfg.ph ≤ 8 := by decide

theorem witness_SegmentFrameLayout :
    segs.cfgd = true ∧ segs.cfg.ptype = .seg ∧ getPanel segs 0 0 = some (.seg [[digit 0, digit 127]]) ∧
      [[digit 0, digit 127]].length = segs.cfg.ph ∧ ∀ row ∈ [[digit 0, digit 127]], row.length = segs.cfg.pw := by decide

theorem witness_WireRowsEmitTheirBytes : ([0] : List Byte) ≠ [] ∧ ([127] : List (BitVec 7)) ≠ [] := by decide

theorem witness_StopsOutsideTheDomain :
    gridOk [] = false ∧ gridOk [[]] = false ∧ gridOk [[true], []] = false ∧ dot.cfgd = true ∧ frameOk .other = false ∧
      Frame.other ∈ [Frame.rgba [], .other] ∧ rgbaOk [0, 0, 0] 1 1 = false ∧ rgbaOk [] 0 0 = false ∧
      sliceOk gridV 2 0 2 3 = false ∧ sliceOk gridV 0 2 2 3 = false := by decide

theorem witness_StopsOfSubSteps :
    State.reset.cfgd = false ∧
      (segs.cfgd = true ∧ segs.cfg.ptype = .seg ∧ hasSize [] (segGeomOf segs.cfg).vh (segGeomOf segs.cfg).vw = false) ∧
      (dot.cfgd = true ∧ dot.cfg.ptype ≠ .seg ∧ hasSize gridG (geomOf dot.cfg).devH (geomOf dot.cfg).devW = false) ∧
      validateFrame dot.cfg (.rgba (List.replicate 31 0)) = some .valShape ∧
      (sliceOk gridG 0 0 (2 * segs.cfg.ph) (2 * segs.cfg.pw) = false) ∧
      (put (.wire []) dot).schedule = .wire [] :: [] ∧ decode dot.cfg.ptype (.wire []) = .error .emptyFrame :=
  ⟨rfl, by decide, by decide, by decide, by decide, rfl, rfl⟩

theorem witness_StopsOnPanelRegisters :
    State.reset.cfgd = false ∧ (dot.cfgd = true ∧ getPanel dot 0 2 = none ∧ getPanel dot 1 0 = none) ∧
      (getPanel dot 0 1 = some (.dot (bits [[0, 0], [0, 0]])) ∧ dot.cfg.ptype ≠ .seg ∧ dot.cfg.ptype ≠ .b) ∧
      (getPanel segs 0 0 = some (.seg [[digit 0, digit 127]]) ∧ segs.cfg.ptype = .seg ∧
        hasSize gridG (2 * segs.cfg.ph) (2 * segs.cfg.pw) = false ∧ hasSize gridG (3 * segs.cfg.ph) segs.cfg.pw = false) ∧
      (getPanel (one .a 1 []) 0 0 = some (.dot []) ∧ (one .a 1 []).cfg.ptype = .a ∧ gridOk [] = false) ∧
      (getPanel (one .b 1 (List.replicate 9 [true])) 0 0 = some (.dot (List.replicate 9 [true])) ∧
        (one .b 1 (List.replicate 9 [true])).cfg.ptype = .b ∧ gridOk (List.replicate 9 [true]) = true ∧
        8 < rowsOf (List.replicate 9 [true])) := by decide

end Sys2Proof.Tests
end

