-- ==== Sys2Proof/Proofs/Encoding.lean ====
section
/-! The three panel frames byte by byte (O54, O55, O56): where each byte of a frame stands, what the data bytes are made
of, and what the encoder rows answer on a register of their own variant. -/

namespace Sys2Proof.Machine

/-! ## Where the bytes of a frame stand (R95, R96) -/

theorem typeAFrame_eq (flush : Bool) (addr : Byte) (data : List Byte) :
    typeAFrame flush addr data = 0x80 :: (if flush then 0x83 else 0x84) :: addr :: (data ++ [0x8F]) := rfl

theorem typeAFrame_length (flush : Bool) (addr : Byte) (data : List Byte) :
    (typeAFrame flush addr data).length = data.length + 4 := by
  simp [typeAFrame_eq]

theorem typeAFrame_getElem?_data (flush : Bool) (addr : Byte) {data : List Byte} {i : Nat} (hi : i < data.length) :
    (typeAFrame flush addr data)[3 + i]? = data[i]? := by
  rw [typeAFrame_eq, Nat.add_comm 3 i]
  simp [List.getElem?_append_left hi]

theorem typeAFrame_getElem?_end (flush : Bool) (addr : Byte) (data : List Byte) :
    (typeAFrame flush addr data)[3 + data.length]? = some 0x8F := by
  rw [typeAFrame_eq, Nat.add_comm 3]
  simp

theorem typeBFrame_eq (addr : Byte) (data : List Byte) :
    typeBFrame addr data =
      0x02 :: (typeBCommand addr data ++ 0x03 :: hexExpand [chkSum (typeBCommand addr data)]) := by
  simp [typeBFrame, startB, endB]

theorem typeBFrame_length (addr : Byte) (data : List Byte) :
    (typeBFrame addr data).length = 2 * data.length + 8 := by
  simp only [typeBFrame_eq, typeBCommand, List.length_cons, List.length_append, hexExpand_length, List.length_nil]
  omega

/-! ## The data bytes (R129, R157, R158) -/

/-- The packed columns of a register of `h` rows and `w` columns: one byte a column, its topmost pixel in bit `h-1`. -/
theorem packBits_columns_big {g : Grid} {h w : Nat} (hs : hasSize g h w = true) (hw : 1 ≤ w) (hh : 1 ≤ h)
    (h8 : h ≤ 8) :
    (packBits g .columns .big).length = w ∧
      ∀ x < w, ∃ v, (packBits g .columns .big)[x]? = some v ∧
        (∀ y < h, v.getLsbD (h - 1 - y) = pixel g y x) ∧ ∀ i, h ≤ i → v.getLsbD i = false := by
  obtain ⟨-, hrows, hcols⟩ := gridOk_of_hasSize hs hh hw
  have hpack : packBits g .columns .big =
      (List.range w).map fun x => BitVec.ofNat 8 (packGroup h fun j => pixel g j x) := by
    simp only [packBits, hrows, hcols]
  rw [hpack]
  refine ⟨by simp, fun x hx => ⟨BitVec.ofNat 8 (packGroup h fun j => pixel g j x), by simp [hx], ?_, ?_⟩⟩
  · intro y hy
    rw [packGroup_getLsbD h8, if_pos (by omega), show h - 1 - (h - 1 - y) = y by omega]
  · intro i hi
    rw [packGroup_getLsbD h8, if_neg (by omega)]

/-- A digit's value is the packed group of its segments, segment 6 first. -/
theorem digitVal_eq_packGroup (d : Segs) :
    digitVal d = packGroup 7 fun j => [d.s6, d.s5, d.s4, d.s3, d.s2, d.s1, d.s0].getD j false := by
  change digitVal d = [bitNat d.s6 * 64, bitNat d.s5 * 32, bitNat d.s4 * 16, bitNat d.s3 * 8, bitNat d.s2 * 4,
    bitNat d.s1 * 2, bitNat d.s0 * 1].sum
  simp only [digitVal, List.sum_cons, List.sum_nil]
  omega

/-- Bit `i` of a digit's byte is segment `i`, and bit 7 is 0 (R97, R157). -/
theorem digitVal_bits (d : Segs) :
    (List.range 8).map (BitVec.ofNat 8 (digitVal d)).getLsbD =
      [d.s0, d.s1, d.s2, d.s3, d.s4, d.s5, d.s6, false] := by
  rw [digitVal_eq_packGroup, funext (packGroup_getLsbD (by decide : 7 ≤ 8) _)]
  rfl

/-- The elements of rows of one length, concatenated: element `x` of row `y` is element `y * w + x`. -/
theorem flatMap_rows {α β : Type} (f : α → β) {rows : List (List α)} {w : Nat} (hw : ∀ row ∈ rows, row.length = w) :
    (rows.flatMap fun row => row.map f).length = rows.length * w ∧
      ∀ y < rows.length, ∀ x < w, ∀ d,
        (rows.flatMap fun row => row.map f)[y * w + x]? = some (f ((rows.getD y []).getD x d)) := by
  have hrow : ∀ y < rows.length, (rows.getD y []).length = w := fun y hy => by
    rw [List.getD_eq_getElem _ _ hy]
    exact hw _ (List.getElem_mem hy)
  have hrows : (List.range rows.length).map (rows.getD · []) = rows :=
    List.ext_getElem (by simp) fun y _ hy => by simp [hy]
  obtain ⟨hlen, helem⟩ := flatMap_blocks rows.length w (fun y => (rows.getD y []).map f) (by simpa using hrow)
  have hflat : (rows.flatMap fun row => row.map f) =
      (List.range rows.length).flatMap fun y => (rows.getD y []).map f := by
    conv_lhs => rw [← hrows, List.flatMap_map]
  rw [hflat]
  refine ⟨hlen, fun y hy x hx d => ?_⟩
  have hx' : x < (rows.getD y []).length := by rwa [hrow y hy]
  rw [helem y hy x hx, List.getElem?_map, List.getD_eq_getElem _ _ hx', List.getElem?_eq_getElem hx', Option.map_some]

/-! ## What the encoder rows answer (R153, R154, R158, R159) -/

/-- The row of a pixel encoder, on a register of the configured size with at most 8 rows. -/
theorem dotPanelFrame_of_dot {variant : PanelType} (enc : Byte → Grid → Bool → List Byte) {r c : Nat} (flush : Bool)
    {s : State} {g : Grid} (hc : s.cfgd = true) (hp : s.cfg.ptype = variant) (hg : getPanel s r c = some (.dot g))
    (hs : hasSize g s.cfg.ph s.cfg.pw = true) (hw : 1 ≤ s.cfg.pw) (hh : 1 ≤ s.cfg.ph) (h8 : s.cfg.ph ≤ 8) :
    dotPanelFrame variant enc r c flush s = .next (ret (.bytes (enc (addrAt s.cfg r c) g flush)) s) := by
  obtain ⟨hok, hrows, -⟩ := gridOk_of_hasSize hs hh hw
  have hpack : packOk g .columns = true := by simpa [packOk, packRange, hrows] using h8
  simp [dotPanelFrame, hc, hg, hp, hok, hpack]

/-- The row of the segment encoder, on a segment register. -/
theorem segPanelFrame_of_seg {r c : Nat} (flush : Bool) {s : State} {digits : List (List Segs)} (hc : s.cfgd = true)
    (hp : s.cfg.ptype = .seg) (hg : getPanel s r c = some (.seg digits)) :
    segPanelFrame r c flush s = .next (ret (.bytes (encSeg (addrAt s.cfg r c) digits flush)) s) := by
  simp [segPanelFrame, hc, hg, hp]

/-- ENCODE is the row that PTYPE selects (R159). -/
theorem exec_encode (r c : Nat) (flush : Bool) (s : State) :
    exec (.encode r c flush) s =
      exec (match s.cfg.ptype with
        | .a => .enca r c flush
        | .b => .encb r c flush
        | .seg => .encseg r c flush) s := by
  change execEncode r c flush s = _
  unfold execEncode
  cases s.cfg.ptype <;> rfl

/-! ## The frames -/

/-- Settles O54: the layout of a Type A frame whose data are the packed columns. -/
theorem typeAFrameLayout : Obligations.TypeAFrameLayout := by
  unfold Obligations.TypeAFrameLayout
  intro s r c flush g hc hp hg hs hw hh h8
  have hrun : exec (.enca r c flush) s = .next (ret (.bytes (encA (addrAt s.cfg r c) g flush)) s) :=
    dotPanelFrame_of_dot encA flush hc hp hg hs hw hh h8
  obtain ⟨hlen, hdata⟩ := packBits_columns_big hs hw hh h8
  refine ⟨encA (addrAt s.cfg r c) g flush, hrun, ?_, ?_, rfl, rfl, rfl, ?_, fun x hx => ?_⟩
  · rw [exec_encode, hp]
    exact hrun
  · rw [encA, typeAFrame_length, hlen]
  · rw [encA, ← hlen, typeAFrame_getElem?_end]
  · rw [encA, typeAFrame_getElem?_data _ _ (hlen.symm ▸ hx)]
    exact hdata x hx

/-- Settles O55: the layout of a Type B frame whose data are the packed columns; ENCB does not read `flush`. -/
theorem typeBFrameLayout : Obligations.TypeBFrameLayout := by
  unfold Obligations.TypeBFrameLayout
  intro s r c g hc hp hg hs hw hh h8
  have hrun (flush : Bool) : exec (.encb r c flush) s = .next (ret (.bytes (encB (addrAt s.cfg r c) g flush)) s) :=
    dotPanelFrame_of_dot encB flush hc hp hg hs hw hh h8
  obtain ⟨hlen, hdata⟩ := packBits_columns_big hs hw hh h8
  refine ⟨packBits g .columns .big, hlen, hdata, ?_⟩
  intro command t
  have ht : t = typeBFrame (addrAt s.cfg r c) (packBits g .columns .big) := by
    rw [typeBFrame_eq, typeBCommand, hlen]
    rfl
  rw [ht]
  refine ⟨by rw [typeBFrame_length, hlen], fun flush => ⟨hrun flush, ?_⟩⟩
  rw [exec_encode, hp]
  exact hrun flush

/-- Settles O56: the layout of a Type A frame whose data are the digit values, row-major. -/
theorem segmentFrameLayout : Obligations.SegmentFrameLayout := by
  unfold Obligations.SegmentFrameLayout
  intro s r c flush digits hc hp hg hh hw
  have hrun : exec (.encseg r c flush) s = .next (ret (.bytes (encSeg (addrAt s.cfg r c) digits flush)) s) :=
    segPanelFrame_of_seg flush hc hp hg
  obtain ⟨hlen, hdata⟩ := flatMap_rows (fun d => BitVec.ofNat 8 (digitVal d)) hw
  rw [hh, Nat.mul_comm] at hlen
  refine ⟨encSeg (addrAt s.cfg r c) digits flush, hrun, ?_, ?_, rfl, rfl, rfl, ?_, fun dy hdy dx hdx => ?_⟩
  · rw [exec_encode, hp]
    exact hrun
  · rw [encSeg, typeAFrame_length, hlen]
  · rw [encSeg, ← hlen, typeAFrame_getElem?_end]
  · have hi : dy * s.cfg.pw + dx < s.cfg.pw * s.cfg.ph := by nlinarith
    refine ⟨BitVec.ofNat 8 (digitVal (digitAt digits dy dx)), ?_, digitVal_bits _⟩
    rw [encSeg, typeAFrame_getElem?_data _ _ (hlen.symm ▸ hi)]
    exact hdata dy (hh.symm ▸ hdy) dx hdx noSegs

end Sys2Proof.Machine
end

