-- ==== Sys2Proof/Proofs/FrameUtilities.lean ====
section
/-! The frame utilities (O37, O40, O41, O42, O44, O46, O47, O48, O49): first what each function gives, as a fact about
grids and bytes, then what its row answers. -/

namespace Sys2Proof.Machine

/-! ## The rows on their domain (R120 to R133) -/

theorem exec_rot90 {g : Grid} (hg : gridOk g = true) (s : State) :
    exec (.rot90 g) s = .next (ret (.grid (rot90 g)) s) := if_pos hg

theorem exec_orient {g : Grid} {s : State} (hc : s.cfgd = true) (hg : gridOk g = true) :
    exec (.orient g) s = .next (ret (.grid (orient s.cfg g)) s) := (if_pos hc).trans (if_pos hg)

theorem exec_rgba2bin {buf : List Byte} {w h : Nat} (hb : rgbaOk buf w h = true) (s : State) :
    exec (.rgba2bin buf w h) s = .next (ret (.grid (rgbaToBinary buf w h)) s) := if_pos hb

theorem exec_resizeg {g : Grid} {w2 h2 : Nat} (hg : gridOk g = true) (hw : 1 ≤ w2) (hh : 1 ≤ h2) (s : State) :
    exec (.resizeg g w2 h2) s = .next (ret (.grid (resizeGrid g w2 h2)) s) := if_pos (by simp [hg, hw, hh])

theorem exec_packbits {g : Grid} {axis : Axis} (hg : gridOk g = true) (hp : packRange g axis ≤ 8) (order : BitOrder)
    (s : State) : exec (.packbits g axis order) s = .next (ret (.bytes (packBits g axis order)) s) :=
  (if_pos hg).trans (if_pos (decide_eq_true hp))

theorem exec_packbits_refused {g : Grid} {axis : Axis} (hg : gridOk g = true) (hp : 8 < packRange g axis)
    (order : BitOrder) (s : State) : exec (.packbits g axis order) s = .refused .packRange :=
  (if_pos hg).trans (if_neg (by simpa [packOk] using hp))

theorem exec_fprint {fs : List Frame} (hne : fs ≠ []) (hok : ∀ f ∈ fs, frameOk f = true) (s : State) :
    exec (.fprint fs) s = .next (ret (.digest (fingerprint fs)) s) := if_pos (by simpa [hne] using hok)

theorem exec_flat {f : Frame} (hf : frameOk f = true) (s : State) :
    exec (.flat f) s = .next (ret (.bytes (flatten f)) s) := if_pos hf

theorem exec_contenteq {a b : Grid} (ha : gridOk a = true) (hb : gridOk b = true) (s : State) :
    exec (.contenteq a b) s = .next (ret (.bit (contentEq a b)) s) := if_pos (by simp [ha, hb])

/-! ## Orientation (R120, R121, R124) -/

/-- The grid lies in the common domain and has `h` rows and `w` columns: the form in which the orientation steps hand a
grid's size on. -/
def GridOf (g : Grid) (h w : Nat) : Prop := gridOk g = true ∧ rowsOf g = h ∧ colsOf g = w

theorem GridOf.hasSize {g : Grid} {h w : Nat} (hg : GridOf g h w) : hasSize g h w = true := by
  obtain ⟨hok, rfl, rfl⟩ := hg
  exact (gridOk_iff.mp hok).2.2

theorem GridOf.rot90 {g : Grid} {h w : Nat} (hg : GridOf g h w) : GridOf (rot90 g) w h := by
  obtain ⟨hok, rfl, rfl⟩ := hg
  exact rot90_gridOk hok

theorem GridOf.mirror {g : Grid} {h w : Nat} (hg : GridOf g h w) : GridOf (mirror g) h w := by
  obtain ⟨hok, rfl, rfl⟩ := hg
  exact mirror_gridOk hok

theorem GridOf.invert {g : Grid} {h w : Nat} (hg : GridOf g h w) : GridOf (invert g) h w := by
  obtain ⟨hok, rfl, rfl⟩ := hg
  exact invert_gridOk hok

/-- A rotation by ROT turns the grid 0, 1, 2 or 3 times: the size swaps exactly where `swapsAxes` says (R121, R180). -/
theorem GridOf.rotate {g : Grid} {h w : Nat} (hg : GridOf g h w) (r : Rotation) :
    GridOf (rotate g (rotDegrees r)) (if swapsAxes r then w else h) (if swapsAxes r then h else w) := by
  cases r with
  | r0 => exact hg
  | r90 => exact hg.rot90
  | r180 => exact hg.rot90.rot90
  | r270 => exact hg.rot90.rot90.rot90

theorem GridOf.ite {a b : Grid} {h w : Nat} {p : Prop} [Decidable p] (ha : GridOf a h w) (hb : GridOf b h w) :
    GridOf (if p then a else b) h w := by
  split
  · exact ha
  · exact hb

/-- MIRROR and INVERT keep the size, so ORIENT's size is the rotation's (R124). -/
theorem GridOf.orient {g : Grid} {h w : Nat} (hg : GridOf g h w) (c : CfgRegs) :
    GridOf (orient c g) (if swapsAxes c.rot then w else h) (if swapsAxes c.rot then h else w) := by
  have hturned := hg.rotate c.rot
  have hmirrored := GridOf.ite (p := c.mir = true) hturned.mirror hturned
  exact GridOf.ite (p := c.inv = true) hmirrored.invert hmirrored

/-- Settles O37: the size and the pixels of ROT90. -/
theorem quarterTurnPixels : Obligations.QuarterTurnPixels := by
  unfold Obligations.QuarterTurnPixels
  intro s g hg
  have hsize : GridOf (rot90 g) (colsOf g) (rowsOf g) := rot90_gridOk hg
  exact ⟨rot90 g, exec_rot90 hg s, hsize.hasSize, fun i hi j hj => pixel_rot90 g hi hj⟩

/-- Settles O40: ORIENT is its three steps in order, with the size of its rotation. -/
theorem orientationPipeline : Obligations.OrientationPipeline := by
  unfold Obligations.OrientationPipeline
  intro s g hc hg
  have hsize := (GridOf.orient ⟨hg, rfl, rfl⟩ s.cfg).hasSize
  refine ⟨orient s.cfg g, exec_orient hc hg, ?_, ?_, rotate g (rotDegrees s.cfg.rot),
    if s.cfg.mir then mirror (rotate g (rotDegrees s.cfg.rot)) else rotate g (rotDegrees s.cfg.rot), rfl,
    fun h => by simp [h], fun h => by simp [h], fun h => by simp [orient, h], fun h => by simp [orient, h]⟩
  · rintro (h | h) <;> rwa [h] at hsize
  · rintro (h | h) <;> rwa [h] at hsize

/-! ## Thresholding (R125, R126) -/

theorem lumaBit_eq_false_iff (r g b : Byte) :
    lumaBit r g b = false ↔ 2126 * r.toNat + 7152 * g.toNat + 722 * b.toNat < 1275000 := by
  simp [lumaBit]

/-- DOC0's inequality multiplied by `10000 * 255`: the integer form of decision D6 (R125). -/
theorem luminance_lt_half_iff (r g b : Nat) :
    ((2126 / 10000 : ℚ) * (r : ℚ) + (7152 / 10000 : ℚ) * (g : ℚ) + (722 / 10000 : ℚ) * (b : ℚ)) / 255 < 1 / 2 ↔
      2126 * r + 7152 * g + 722 * b < 1275000 := by
  have hscaled : ((2126 / 10000 : ℚ) * r + (7152 / 10000 : ℚ) * g + (722 / 10000 : ℚ) * b) / 255 =
      ((2126 * r + 7152 * g + 722 * b : ℕ) : ℚ) / 2550000 := by
    push_cast
    ring
  rw [hscaled, div_lt_iff₀ (by norm_num), show (1 / 2 * 2550000 : ℚ) = (1275000 : ℕ) by norm_num, Nat.cast_lt]

/-- Settles O41: the integer form LUMABIT evaluates is the rational inequality. -/
theorem luminanceThresholdExact : Obligations.LuminanceThresholdExact := by
  unfold Obligations.LuminanceThresholdExact
  intro s r g b
  exact ⟨lumaBit r g b, rfl, (lumaBit_eq_false_iff r g b).trans (luminance_lt_half_iff _ _ _).symm⟩

theorem pixel_rgbaToBinary (buf : List Byte) {w h y x : Nat} (hy : y < h) (hx : x < w) :
    pixel (rgbaToBinary buf w h) y x =
      lumaBit (memRead buf (rgbaOffset w y x 0)) (memRead buf (rgbaOffset w y x 1))
        (memRead buf (rgbaOffset w y x 2)) := by
  rw [rgbaToBinary, pixel_tabulate, if_pos ⟨hy, hx⟩]

/-- Settles O42: RGBA2BIN tabulates LUMABIT of the three bytes at R62's offsets. -/
theorem rgbaToBinaryPixels : Obligations.RgbaToBinaryPixels := by
  unfold Obligations.RgbaToBinaryPixels
  intro s buf w h hb
  exact ⟨rgbaToBinary buf w h, exec_rgba2bin hb s, hasSize_tabulate h w _,
    fun y hy x hx => pixel_rgbaToBinary buf hy hx⟩

/-! ## Resampling a grid (R128) -/

theorem sampleIndex_self {i n : Nat} (hi : i < n) : sampleIndex i n n = i := Nat.mul_div_cancel i (by omega)

theorem pixel_resizeGrid (g : Grid) {w2 h2 y x : Nat} (hy : y < h2) (hx : x < w2) :
    pixel (resizeGrid g w2 h2) y x = pixel g (sampleIndex y (rowsOf g) h2) (sampleIndex x (colsOf g) w2) := by
  rw [resizeGrid, pixel_tabulate, if_pos ⟨hy, hx⟩]

theorem resizeGrid_self {g : Grid} (hg : gridOk g = true) : resizeGrid g (colsOf g) (rowsOf g) = g := by
  refine grid_ext (hasSize_tabulate _ _ _) (gridOk_iff.mp hg).2.2 fun y hy x hx => ?_
  rw [pixel_resizeGrid g hy hx, sampleIndex_self hy, sampleIndex_self hx]

/-- Settles O44: RESIZEG tabulates the sampled pixels; equal sizes sample every pixel at its own place. -/
theorem resizeGridPixels : Obligations.ResizeGridPixels := by
  unfold Obligations.ResizeGridPixels
  intro s g w2 h2 hg hw hh
  refine ⟨resizeGrid g w2 h2, exec_resizeg hg hw hh s, hasSize_tabulate h2 w2 _, ?_,
    fun y hy x hx => pixel_resizeGrid g hy hx⟩
  rintro rfl rfl
  exact resizeGrid_self hg

/-! ## Bit reversal and bit packing (R129, R130) -/

theorem bitRev8_bitRev8 (v : Byte) : bitRev8 (bitRev8 v) = v := by
  refine BitVec.eq_of_getLsbD_eq fun i hi => ?_
  rw [bitRev8_getLsbD, bitRev8_getLsbD, show 7 - (7 - i) = i by omega]
  simp [hi, show 7 - i < 8 by omega]

/-- Settles O47: BITREV8 bit by bit, and that it undoes itself. -/
theorem bitReversal : Obligations.BitReversal := by
  unfold Obligations.BitReversal
  intro s v
  refine ⟨bitRev8 v, rfl, fun i hi => by rw [bitRev8_getLsbD, decide_eq_true hi, Bool.true_and], ?_⟩
  exact congrArg (fun u => Host.Outcome.next (ret (.byte u) s)) (bitRev8_bitRev8 v)

/-- The number of bytes PACKBITS gives: the columns for axis 0, the rows for axis 1 (R129). -/
def packCount (g : Grid) (axis : Axis) : Nat :=
  match axis with
  | .columns => colsOf g
  | .rows => rowsOf g

/-- Element `j` of the group that PACKBITS makes byte `k` of (R129). -/
def packElement (g : Grid) (axis : Axis) (k j : Nat) : Pixel :=
  match axis with
  | .columns => pixel g j k
  | .rows => pixel g k j

/-- The byte of group `k` with the order big (R129). -/
def packByte (g : Grid) (axis : Axis) (k : Nat) : Byte :=
  BitVec.ofNat 8 (packGroup (packRange g axis) (packElement g axis k))

theorem packBits_big (g : Grid) (axis : Axis) :
    packBits g axis .big = (List.range (packCount g axis)).map (packByte g axis) := by
  cases axis <;> rfl

theorem packBits_little (g : Grid) (axis : Axis) :
    packBits g axis .little = (List.range (packCount g axis)).map fun k => bitRev8 (packByte g axis k) := by
  have hrev : packBits g axis .little = (packBits g axis .big).map bitRev8 := rfl
  rw [hrev, packBits_big, List.map_map]
  rfl

theorem packByte_getLsbD {g : Grid} {axis : Axis} (hp : packRange g axis ≤ 8) (k i : Nat) :
    (packByte g axis k).getLsbD i =
      if i < packRange g axis then packElement g axis k (packRange g axis - 1 - i) else false :=
  packGroup_getLsbD hp _ i

/-- With the order big the first element is the most significant of the `range` low bits, the others are 0. -/
theorem packByte_bits {g : Grid} {axis : Axis} (hp : packRange g axis ≤ 8) (k : Nat) :
    (∀ j < packRange g axis, (packByte g axis k).getLsbD (packRange g axis - 1 - j) = packElement g axis k j) ∧
      ∀ i, packRange g axis ≤ i → (packByte g axis k).getLsbD i = false := by
  refine ⟨fun j hj => ?_, fun i hi => ?_⟩
  · rw [packByte_getLsbD hp, if_pos (by omega), show packRange g axis - 1 - (packRange g axis - 1 - j) = j by omega]
  · rw [packByte_getLsbD hp, if_neg (by omega)]

/-- Reversed, the group takes the `range` high bits in order and the bits below are 0. -/
theorem bitRev8_packByte_bits {g : Grid} {axis : Axis} (hp : packRange g axis ≤ 8) (k : Nat) :
    (∀ j < packRange g axis,
        (bitRev8 (packByte g axis k)).getLsbD (8 - packRange g axis + j) = packElement g axis k j) ∧
      ∀ i < 8 - packRange g axis, (bitRev8 (packByte g axis k)).getLsbD i = false := by
  obtain ⟨helem, hzero⟩ := packByte_bits hp k
  refine ⟨fun j hj => ?_, fun i hi => ?_⟩
  · rw [bitRev8_getLsbD, show 7 - (8 - packRange g axis + j) = packRange g axis - 1 - j by omega, helem j hj]
    simp [show 8 - packRange g axis + j < 8 by omega]
  · rw [bitRev8_getLsbD, hzero (7 - i) (by omega), Bool.and_false]

/-- Settles O46: the bits of each packed byte in both orders, and the refusal of a longer group. -/
theorem packBitsPlacesEveryPixel : Obligations.PackBitsPlacesEveryPixel := by
  unfold Obligations.PackBitsPlacesEveryPixel
  intro s g axis order hg range count element
  refine ⟨fun hp => exec_packbits_refused hg hp order s, fun hp =>
    ⟨packBits g axis order, exec_packbits hg hp order s, ?_⟩⟩
  change (packBits g axis order).length = packCount g axis ∧ ∀ k < packCount g axis, _
  cases order with
  | big =>
    rw [packBits_big]
    exact ⟨by simp, fun k hk => ⟨packByte g axis k, by simp [hk], fun _ => packByte_bits hp k, nofun⟩⟩
  | little =>
    rw [packBits_little]
    exact ⟨by simp, fun k hk =>
      ⟨bitRev8 (packByte g axis k), by simp [hk], nofun, fun _ => bitRev8_packByte_bits hp k⟩⟩

/-! ## Flattening, fingerprint and equality (R131, R132, R133) -/

/-- FLAT of a grid: one byte a pixel, row-major (R132). -/
theorem flatten_grid {g : Grid} (hg : gridOk g = true) :
    (flatten (.grid g)).length = rowsOf g * colsOf g ∧
      ∀ y < rowsOf g, ∀ x < colsOf g, (flatten (.grid g))[y * colsOf g + x]? = some (pixelByte (pixel g y x)) := by
  obtain ⟨-, -, hsize⟩ := gridOk_iff.mp hg
  obtain ⟨-, hrows⟩ := hasSize_iff.mp hsize
  obtain ⟨hlen, helem⟩ := flatMap_rows pixelByte hrows
  exact ⟨hlen, fun y hy x hx => helem y hy x hx false⟩

/-- Settles O48: FLAT byte by byte, and FPRINT as FP of the flattenings one after the other. -/
theorem flattenAndFingerprint : Obligations.FlattenAndFingerprint := by
  unfold Obligations.FlattenAndFingerprint
  refine ⟨fun s g hg => ?_, fun s buf => exec_flat rfl s, fun s fs hne hok => ?_⟩
  · obtain ⟨hlen, hbytes⟩ := flatten_grid hg
    exact ⟨flatten (.grid g), exec_flat (f := .grid g) hg s, hlen, hbytes⟩
  · rw [exec_fprint hne hok, fingerprint, List.flatMap_def]
    rfl

/-- CONTENTEQ's two checks: the dimensions and every pixel (R133). -/
theorem contentEq_iff (a b : Grid) :
    contentEq a b = true ↔
      rowsOf a = rowsOf b ∧ colsOf a = colsOf b ∧ ∀ y < rowsOf a, ∀ x < colsOf a, pixel a y x = pixel b y x := by
  by_cases hd : rowsOf a = rowsOf b ∧ colsOf a = colsOf b
  · simp [contentEq, hd]
  · have hne : rowsOf a ≠ rowsOf b ∨ colsOf a ≠ colsOf b := by rwa [ne_eq, ne_eq, ← not_and_or]
    rw [contentEq, if_pos hne]
    exact ⟨nofun, fun ⟨hr, hc, _⟩ => absurd ⟨hr, hc⟩ hd⟩

/-- Settles O49: grids of the common domain with equal dimensions and equal pixels are the same grid. -/
theorem contentEqualityIsEquality : Obligations.ContentEqualityIsEquality := by
  unfold Obligations.ContentEqualityIsEquality
  intro s a b ha hb
  refine ⟨contentEq a b, exec_contenteq ha hb s, fun h => ?_, ?_⟩
  · obtain ⟨hrows, hcols, hpix⟩ := (contentEq_iff a b).mp h
    have hsize : hasSize b (rowsOf a) (colsOf a) = true := by
      rw [hrows, hcols]
      exact (gridOk_iff.mp hb).2.2
    exact grid_ext (gridOk_iff.mp ha).2.2 hsize hpix
  · rintro rfl
    exact (contentEq_iff a a).mpr ⟨rfl, rfl, fun _ _ _ _ => rfl⟩

end Sys2Proof.Machine
end

