-- ==== Sys2Proof/Proofs/PanelFunctions.lean ====
section
/-! The panel functions (O50, O51, O53): hexadecimal characters and the checksum of a byte sequence, the value of a
digit, and the segment writes. -/

namespace Sys2Proof.Machine

/-! ## Hexadecimal expansion and checksum (R151, R152) -/

/-- The ASCII code of a hexadecimal digit. -/
theorem hexDigit_toNat {n : Nat} (hn : n < 16) : (hexDigit n).toNat = if n ≤ 9 then 0x30 + n else 0x57 + n := by
  unfold hexDigit
  split <;> rw [BitVec.toNat_ofNat, Nat.mod_eq_of_lt (by omega)]

/-- CHKSUM's formula; its low 8 bits are the byte (R152, decision D11). -/
theorem chkSum_toNat (bytes : List Byte) :
    (chkSum bytes).toNat = ((((bytes.map BitVec.toNat).sum &&& 0xFF) ^^^ 0xFF) + 3) &&& 0xFF := by
  have low8 (n : Nat) : n &&& 0xFF = n % 256 := Nat.and_two_pow_sub_one_eq_mod n 8
  rw [chkSum, BitVec.toNat_ofNat, low8, low8]
  rfl

/-- Settles O50: the two characters of every byte with their codes, and the checksum's formula. -/
theorem hexExpansionAndChecksum : Obligations.HexExpansionAndChecksum := by
  unfold Obligations.HexExpansionAndChecksum
  intro s bytes
  refine ⟨⟨hexExpand bytes, rfl, hexExpand_length bytes, fun i v hv => ?_⟩, chkSum bytes, rfl, chkSum_toNat bytes⟩
  obtain ⟨hhi, hlo⟩ := hexExpand_getElem? bytes i v hv
  exact ⟨_, _, hhi, hlo, hexDigit_toNat (by omega), hexDigit_toNat (by omega)⟩

/-! ## The value of a digit (R157) -/

/-- Bit `i` of a digit's value is element `6 - i` of its segments reversed; there is no higher bit. -/
theorem digitVal_testBit (d : Segs) (i : Nat) :
    (digitVal d).testBit i =
      if i < 7 then [d.s6, d.s5, d.s4, d.s3, d.s2, d.s1, d.s0].getD (7 - 1 - i) false else false := by
  rw [digitVal_eq_packGroup, packGroup_testBit]

theorem digitVal_lt (d : Segs) : digitVal d < 128 :=
  Nat.lt_pow_two_of_testBit (n := 7) _ fun i hi => by rw [digitVal_testBit, if_neg (by omega)]

/-- Settles O51: the seven bits of a digit's value, and its bound. -/
theorem digitValueBits : Obligations.DigitValueBits := by
  unfold Obligations.DigitValueBits
  intro s d
  refine ⟨digitVal d, rfl, digitVal_lt d, ?_⟩
  rw [funext (digitVal_testBit d)]
  rfl

/-! ## The segment writes (R155, R156) -/

/-- The digit after SETVERT: segments 1, 5, 2, 4 are the block's pixels, 0, 3, 6 are the old ones (R155). -/
theorem digitAt_vertDigits (digits : List (List Segs)) (v : Grid) {ph pw dy dx : Nat} (hy : dy < ph) (hx : dx < pw) :
    digitAt (vertDigits ph pw digits v) dy dx =
      { digitAt digits dy dx with
        s1 := pixel v (2 * dy) (2 * dx), s5 := pixel v (2 * dy) (2 * dx + 1),
        s2 := pixel v (2 * dy + 1) (2 * dx), s4 := pixel v (2 * dy + 1) (2 * dx + 1) } := by
  rw [vertDigits, digitAt_tabulate, if_pos ⟨hy, hx⟩]

/-- The digit after SETHORIZ: segments 6, 0, 3 are the block's pixels, 1, 2, 4, 5 are the old ones (R156). -/
theorem digitAt_horizDigits (digits : List (List Segs)) (h : Grid) {ph pw dy dx : Nat} (hy : dy < ph) (hx : dx < pw) :
    digitAt (horizDigits ph pw digits h) dy dx =
      { digitAt digits dy dx with
        s6 := pixel h (3 * dy) dx, s0 := pixel h (3 * dy + 1) dx, s3 := pixel h (3 * dy + 2) dx } := by
  rw [horizDigits, digitAt_tabulate, if_pos ⟨hy, hx⟩]

/-- The state of a panel write that returns `v`: the old one but for the registers and VALUE. -/
theorem PanelWrite.ret_eq {r c : Nat} {s t : State} (h : PanelWrite r c s t) (v : Value) :
    ret v t = { s with panels := t.panels, value := v } := by
  rw [h.rest]
  rfl

/-- The row SETVERT on a segment register and a grid of its size. -/
theorem exec_setvert {r c : Nat} {s : State} {g : Grid} {digits : List (List Segs)} (hc : s.cfgd = true)
    (hp : s.cfg.ptype = .seg) (hd : getPanel s r c = some (.seg digits))
    (hs : hasSize g (2 * s.cfg.ph) (2 * s.cfg.pw) = true) :
    exec (.setvert r c g) s = .next (ret .nothing (setVert r c g s)) := by
  change execSetvert r c g s = _
  simp [execSetvert, hc, hd, hp, hs]

/-- The row SETHORIZ on a segment register and a grid of its size. -/
theorem exec_sethoriz {r c : Nat} {s : State} {g : Grid} {digits : List (List Segs)} (hc : s.cfgd = true)
    (hp : s.cfg.ptype = .seg) (hd : getPanel s r c = some (.seg digits))
    (hs : hasSize g (3 * s.cfg.ph) s.cfg.pw = true) :
    exec (.sethoriz r c g) s = .next (ret .nothing (setHoriz r c g s)) := by
  change execSethoriz r c g s = _
  simp [execSethoriz, hc, hd, hp, hs]

/-- Settles O53: both writes are panel writes of one register, whose digits are known segment by segment. -/
theorem segmentWritesTouchTheirSegments : Obligations.SegmentWritesTouchTheirSegments := by
  unfold Obligations.SegmentWritesTouchTheirSegments
  intro s r c g digits hc hp hd
  constructor
  · intro hs
    have hwrite := setVert_write r c g s
    refine ⟨_, vertDigits s.cfg.ph s.cfg.pw digits g, exec_setvert hc hp hd hs, hwrite.ret_eq .nothing,
      setVert_seg hd g, hwrite.other, fun dy hy dx hx => ?_⟩
    rw [digitAt_vertDigits digits g hy hx]
    exact ⟨rfl, rfl, rfl, rfl, rfl, rfl, rfl⟩
  · intro hs
    have hwrite := setHoriz_write r c g s
    refine ⟨_, horizDigits s.cfg.ph s.cfg.pw digits g, exec_sethoriz hc hp hd hs, hwrite.ret_eq .nothing,
      setHoriz_seg hd g, hwrite.other, fun dy hy dx hx => ?_⟩
    rw [digitAt_horizDigits digits g hy hx]
    exact ⟨rfl, rfl, rfl, rfl, rfl, rfl, rfl⟩

end Sys2Proof.Machine
end

