-- ==== Sys2Proof/Proofs/DisplaySend.lean ====
section
/-! The send path before and after the fan-out (O21, O28, O33): which frames VALIDATE takes, what the fingerprint rows
give, and what RECORD writes. -/

namespace Sys2Proof.Machine

/-! ## Validation (R181) -/

/-- A grid frame passes with HEIGHT rows of WIDTH pixels. -/
theorem validateFrame_grid (c : CfgRegs) (rows : Grid) :
    validateFrame c (.grid rows) =
      if rows.length = (geomOf c).height ∧ ∀ row ∈ rows, row.length = (geomOf c).width then none
      else some .valShape := by
  simp only [validateFrame, hasSize_iff]

/-- An RGBA frame passes with four bytes a pixel. -/
theorem validateFrame_rgba (c : CfgRegs) (bytes : List Byte) :
    validateFrame c (.rgba bytes) =
      if bytes.length = (geomOf c).width * (geomOf c).height * 4 then none else some .valShape := rfl

theorem validateFrame_other (c : CfgRegs) : validateFrame c .other = some .valKind := rfl

theorem exec_validate {f : Frame} {s : State} (hc : s.cfgd = true) (hv : validateFrame s.cfg f = none) :
    exec (.validate f) s = .next (ret .nothing s) := by
  change execValidate f s = _
  simp [execValidate, hc, hv]

theorem exec_validate_error {f : Frame} {s : State} {e : Err} (hc : s.cfgd = true)
    (hv : validateFrame s.cfg f = some e) : exec (.validate f) s = .next (raise e s) := by
  change execValidate f s = _
  simp [execValidate, hc, hv]

/-- The core of a send ends with VALIDATE's error, whichever core it is. -/
theorem sendCore_error {f : Frame} {s : State} {e : Err} (flush : Bool) (now : Nat)
    (hv : validateFrame s.cfg f = some e) : sendCore f flush now s = .error e := by
  rcases sendCore_cases f flush now s with ⟨e', he', hcore⟩ | ⟨hnone, -⟩ | ⟨hnone, -⟩
  · cases hv.symm.trans he'
    exact hcore
  · cases hv.symm.trans hnone
  · cases hv.symm.trans hnone

/-- A connected SEND raises the error its core ends with (R187). -/
theorem exec_send_error {f : Frame} {flush : Bool} {now : Nat} {s : State} {e : Err} (hc : s.cfgd = true)
    (hconn : s.conn = .connected) (hcore : sendCore f flush now s = .error e) :
    exec (.send f flush now) s = .next (raise e s) := by
  change execSend f flush now s = _
  simp [execSend, hc, hconn, hcore]

/-- A frame VALIDATE rejects: the row and a connected SEND both raise its error and do nothing else. -/
theorem rejected_raises {f : Frame} {s : State} {e : Err} (hc : s.cfgd = true) (hv : validateFrame s.cfg f = some e)
    (flush : Bool) (now : Nat) :
    exec (.validate f) s = .next (raise e s) ∧
      (s.conn = .connected → exec (.send f flush now) s = .next (raise e s)) :=
  ⟨exec_validate_error hc hv, fun hconn => exec_send_error hc hconn (sendCore_error flush now hv)⟩

/-- Settles O21, by the three kinds of frame: the test of each kind decides whether VALIDATE returns or raises. -/
theorem wrongShapesAreRejected : Obligations.WrongShapesAreRejected := by
  unfold Obligations.WrongShapesAreRejected
  intro s f flush now hc w h raised
  cases f with
  | grid rows =>
    have hv := validateFrame_grid s.cfg rows
    dsimp only
    split
    next hshape => exact exec_validate hc (hv.trans (if_pos hshape))
    next hshape => exact rejected_raises hc (hv.trans (if_neg hshape)) flush now
  | rgba bytes =>
    have hv := validateFrame_rgba s.cfg bytes
    dsimp only
    split
    next hlen => exact exec_validate hc (hv.trans (if_pos hlen))
    next hlen => exact rejected_raises hc (hv.trans (if_neg hlen)) flush now
  | other => exact rejected_raises hc (validateFrame_other s.cfg) flush now

/-! ## Fingerprints (R182, R212) -/

theorem fingerprint_singleton (f : Frame) : fingerprint [f] = Config.fp (flatten f) := by simp [fingerprint]

theorem fingerprint_pair (f g : Frame) : fingerprint [f, g] = Config.fp (flatten f ++ flatten g) := by
  simp [fingerprint]

theorem isDuplicate_iff (s : State) (fp : Digest) : isDuplicate s fp = true ↔ s.lastFp = some fp := by
  cases h : s.lastFp <;> simp [isDuplicate, h]

theorem exec_dedup {f : Frame} (hf : frameOk f = true) (s : State) :
    exec (.dedup f) s = .next (ret (.dedup (fingerprint [f]) (isDuplicate s (fingerprint [f]))) s) := if_pos hf

theorem exec_segfp {v h : Frame} (hv : frameOk v = true) (hh : frameOk h = true) (s : State) :
    exec (.segfp v h) s = .next (ret (.digest (fingerprint [v, h])) s) := if_pos (by simp [hv, hh])

/-- Settles O33: both rows return the fingerprint of their frames, and DEDUP's bit is the test on LAST_FP. -/
theorem fingerprintsOfFrames : Obligations.FingerprintsOfFrames := by
  unfold Obligations.FingerprintsOfFrames
  refine ⟨fun s f hf => ?_, fun s v h hv hh => ?_⟩
  · rw [← fingerprint_singleton]
    exact ⟨isDuplicate s (fingerprint [f]), exec_dedup hf s, isDuplicate_iff s _⟩
  · rw [← fingerprint_pair]
    exact exec_segfp hv hh s

/-! ## Recording (R186) -/

theorem exec_record {s : State} (hc : s.cfgd = true) (fp : Digest) (now : Nat) :
    exec (.record fp now) s = .next (ret .nothing (recordSend fp now s)) := if_pos hc

theorem tooSoon_of_none {s : State} (ht : s.lastTs = none) (now : Nat) : tooSoon s now = false := by
  simp [tooSoon, ht]

/-- With a send at `t`, the interval is below MINI exactly when `now` comes before `t + MINI`. The rule's `t ≤ now` is
needed only where MINI is 0. -/
theorem tooSoon_iff {s : State} {t now : Nat} (ht : s.lastTs = some t) (hle : t ≤ now) :
    tooSoon s now = true ↔ now < t + s.cfg.mini := by
  simp only [tooSoon, ht, decide_eq_true_eq]
  omega

/-- RECORD without a warning: the interval is no violation, or the latch is set already. -/
theorem recordSend_silent {s : State} {now : Nat} (h : tooSoon s now = false ∨ s.rateWarned = true) (fp : Digest) :
    recordSend fp now s = { s with lastFp := some fp, lastTs := some now } := by
  rw [recordSend_spec]
  rcases h with h | h <;> simp [h]

/-- RECORD at the first violation: the latch and one W_RATE with the interval. -/
theorem recordSend_warns {s : State} {t now : Nat} (ht : s.lastTs = some t) (hsoon : tooSoon s now = true)
    (hw : s.rateWarned = false) (fp : Digest) :
    recordSend fp now s =
      { s with
        lastFp := some fp, lastTs := some now, rateWarned := true, warnLog := s.warnLog ++ [.rate (now - t)] } := by
  rw [recordSend_spec]
  simp [hsoon, hw, ht]

/-- Settles O28: three ways RECORD is silent, and the first violation. -/
theorem recordReportsRateOnce : Obligations.RecordReportsRateOnce := by
  unfold Obligations.RecordReportsRateOnce
  intro s fp now hc
  rw [exec_record hc]
  refine ⟨fun ht => ?_, fun t ht hfar => ?_, fun t ht hle hnear hw => ?_, fun t ht hle hnear hw => ?_⟩
  · rw [recordSend_silent (.inl (tooSoon_of_none ht now))]
    rfl
  · have hlate : tooSoon s now = false := by
      rw [← Bool.not_eq_true, tooSoon_iff ht (by omega)]
      omega
    rw [recordSend_silent (.inl hlate)]
    rfl
  · rw [recordSend_silent (.inr hw)]
    rfl
  · rw [recordSend_warns ht ((tooSoon_iff ht hle).mpr hnear) hw]
    rfl

end Sys2Proof.Machine
end

