-- ==== Sys2Proof/Proofs/LifecycleQueue.lean ====
section
/-! The connection and the queue before it (O12, O20, O29, O30): what the device events and ENQUEUE write, which
operations a schedule can hold, and what each of them does to CONN. -/

namespace Sys2Proof.Machine

/-! ## Device events (R229, R230, R233) -/

theorem exec_devOpenDone (d : Nat) (err : Bool) (s : State) :
    exec (.devOpenDone d err) s = .next (openDone d err s) := rfl

theorem exec_devWriteDone (d : Nat) (err : Bool) (s : State) :
    exec (.devWriteDone d err) s = .next (writeDone d err s) := rfl

/-- An event that is no error of a configured device leaves the state as it is. -/
theorem writeDone_ignored {d : Nat} {err : Bool} {s : State}
    (h : ¬(s.cfgd = true ∧ d < s.cfg.ndev ∧ err = true)) : writeDone d err s = s := by
  simp [writeDone_spec, h]

/-- Settles O30: `writeDone_spec` with its condition decided. -/
theorem writeCompletionOnlyWarns : Obligations.WriteCompletionOnlyWarns := by
  unfold Obligations.WriteCompletionOnlyWarns
  intro s d
  simp only [exec_devWriteDone]
  refine ⟨?_, fun hc hd => ?_, fun hout => ?_⟩
  · rw [writeDone_ignored (by simp)]
  · simp [writeDone_spec, hc, hd]
  · rw [writeDone_ignored]
    rintro ⟨hc, hd, -⟩
    rcases hout with hunconfigured | hunknown
    · simp [hc] at hunconfigured
    · omega

theorem allDone_iff (s : State) : allDone s = true ↔ ∀ e < s.cfg.ndev, doneAt s e = true := by
  simp [allDone]

/-- DEV_DONE after device `d` completes. -/
theorem doneAt_set {s : State} {d : Nat} (hd : d < s.devDone.length) (e : Nat) :
    doneAt { s with devDone := s.devDone.set d true } e = true ↔ e = d ∨ doneAt s e = true := by
  by_cases he : e = d
  · subst he
    simp [doneAt, hd]
  · simp [doneAt, he, List.getElem?_set_ne (Ne.symm he)]

/-- The join (R230) at device `d`'s completion: every other device has completed before. -/
theorem allDone_set_iff {s : State} {d : Nat} (hd : d < s.devDone.length) :
    allDone { s with devDone := s.devDone.set d true } = true ↔
      ∀ e < s.cfg.ndev, e = d ∨ doneAt s e = true := by
  simp only [allDone_iff, doneAt_set hd]

/-- An event of an unconfigured block, of an unknown device or of a device already done leaves the state as it is. -/
theorem openDone_ignored {d : Nat} {err : Bool} {s : State}
    (h : s.cfgd = false ∨ s.cfg.ndev ≤ d ∨ doneAt s d = true) : openDone d err s = s := if_pos h

/-- Settles O29: the two ways `openDone_cases` names, the join's condition restated over the state before. -/
theorem openCompletionJoins : Obligations.OpenCompletionJoins := by
  unfold Obligations.OpenCompletionJoins
  intro s d err hinv
  simp only [exec_devOpenDone]
  refine ⟨fun hignored => by rw [openDone_ignored hignored], fun hc hd hnew => ?_⟩
  have hlen : d < s.devDone.length := (hinv.1 hc).done_len ▸ hd
  rcases openDone_cases d err s with ⟨hignored | hignored | hignored, -⟩ | ⟨-, -, -, hstep⟩
  · simp [hc] at hignored
  · omega
  · simp [hnew] at hignored
  · simp only [hstep, allDone_set_iff hlen]

/-! ## The queue before the connection (R187, R231) -/

/-- SEND while the block is configured and not connected: ENQUEUE, its status on the RESULT port. -/
theorem exec_send_queues {s : State} (hc : s.cfgd = true) (hconn : s.conn ≠ .connected) (f : Frame) (flush : Bool)
    (now : Nat) :
    exec (.send f flush now) s = .next (answer (enqueueFrame f flush s).1 (enqueueFrame f flush s).2) := by
  change execSend f flush now s = _
  simp [execSend, hc, hconn]

theorem exec_enqueue {s : State} (hc : s.cfgd = true) (f : Frame) (flush : Bool) :
    exec (.enqueue f flush) s = .next (ret (.status (enqueueFrame f flush s).1) (enqueueFrame f flush s).2) :=
  if_pos hc

/-- Settles O20: both rows are ENQUEUE with its status on their own port; room in Q decides what ENQUEUE does. -/
theorem sendBeforeConnectionIsQueued : Obligations.SendBeforeConnectionIsQueued := by
  unfold Obligations.SendBeforeConnectionIsQueued
  intro s f flush now hc
  rw [exec_enqueue hc]
  rcases enqueueFrame_spec f flush s with ⟨hroom, henq⟩ | ⟨hfull, henq⟩
  · refine ⟨fun _ => ⟨fun hconn => ?_, by rw [henq]; rfl⟩, fun hfull => absurd hroom (by omega)⟩
    rw [exec_send_queues hc hconn, henq]
    rfl
  · refine ⟨fun hroom => absurd hroom (by omega), fun _ => ⟨fun hconn => ?_, by rw [henq]; rfl⟩⟩
    rw [exec_send_queues hc hconn, henq]
    rfl

/-! ## What a schedule can hold (R91, R102) -/

theorem optionReads_natField (o : Option Nat) : OptionReads Field.nat (natField o) o := by
  cases o with
  | none => exact .leftOut
  | some n => exact .given n

theorem optionReads_flagField (o : Option Bool) : OptionReads Field.flag (flagField o) o := by
  cases o with
  | none => exact .leftOut
  | some b => exact .given b

/-- A CFG record is read as R92 words it. -/
theorem recordReads_of_decodeCfg {fields : List Field} {i : Instr} (h : decodeCfg fields = some i) :
    RecordReads 0x01 fields i := by
  unfold decodeCfg at h
  split at h
  · split at h
    · next hrot hmir hinv hmaxq =>
      cases h
      rw [optNat_eq_some] at hrot hmaxq
      rw [optFlag_eq_some] at hmir hinv
      subst hrot hmir hinv hmaxq
      exact .cfg ⟨_, _, _, _, _, _, _, _, _, _⟩ (optionReads_natField _) (optionReads_flagField _)
        (optionReads_flagField _) (optionReads_natField _)
    · cases h
  · cases h

/-- A SEND record is read as R93 words it. -/
theorem recordReads_of_decodeSend {fields : List Field} {i : Instr} (h : decodeSend fields = some i) :
    RecordReads 0x02 fields i := by
  unfold decodeSend at h
  split at h
  · split at h
    · next flush hflush =>
      cases h
      rw [optFlag_eq_some] at hflush
      subst hflush
      cases flush with
      | none => exact .sendDefault _ _
      | some b => exact .send _ b _
    · cases h
  · cases h

/-- A record that decodes spells the operation it decodes to (R91 to R94). -/
theorem recordReads_of_decodeRecord {op : Byte} {fields : List Field} {i : Instr}
    (h : decodeRecord op fields = .ok i) : RecordReads op fields i := by
  have found {o : Option Instr} (ho : (match o with
      | some i => .ok i
      | none => .error (.badRecord op)) = (.ok i : Except DecodeError Instr)) : o = some i := by
    cases o <;> cases ho
    rfl
  unfold decodeRecord at h
  split_ifs at h with hreset hcfg hsend hopen hwrite hdrain
  · subst hreset
    have ho := found h
    split at ho <;> cases ho
    exact .reset
  · subst hcfg
    exact recordReads_of_decodeCfg (found h)
  · subst hsend
    exact recordReads_of_decodeSend (found h)
  · subst hopen
    have ho := found h
    split at ho <;> cases ho
    exact .devOpenDone _ _
  · subst hwrite
    have ho := found h
    split at ho <;> cases ho
    exact .devWriteDone _ _
  · subst hdrain
    have ho := found h
    split at ho <;> cases ho
    exact .drain _

/-- A frame that begins as Type A does decodes to a Type A row or, for PTYPE SEG, a Segmented one (R95, R97). -/
theorem formatOf_of_decodeTypeA {pt : PanelType} {bytes : List Byte} {i : Instr} (h : decodeTypeA pt bytes = .ok i) :
    formatOf i = .wire := by
  unfold decodeTypeA at h
  split at h
  · next fb addr rest =>
    split at h
    · cases h
    · split at h
      · cases h
      · next data e _ =>
        split_ifs at h <;> cases h <;> rfl
  · cases h

/-- A frame that begins as Type B does decodes to the Type B row (R96). -/
theorem formatOf_of_decodeTypeB {bytes : List Byte} {i : Instr} (h : decodeTypeB bytes = .ok i) :
    formatOf i = .wire := by
  unfold decodeTypeB at h
  split at h
  · cases h
  · split at h
    · cases h
    · split at h
      · cases h
      · split at h
        · cases h
        · split at h
          · split_ifs at h
            cases h
            rfl
          · cases h
          · cases h

/-- What the decoder reads from wire bytes is a WIRE row (R102). -/
theorem formatOf_of_decodeWire {pt : PanelType} {bytes : List Byte} {i : Instr} (h : decodeWire pt bytes = .ok i) :
    formatOf i = .wire := by
  unfold decodeWire at h
  split at h
  · cases h
  · split at h
    · exact formatOf_of_decodeTypeA h
    · split at h
      · exact formatOf_of_decodeTypeB h
      · cases h

/-- A WIRE row returns its frame's bytes and does nothing else (log 3). -/
theorem exec_wire_next {i : Instr} {s t : State} (hi : formatOf i = .wire) (h : exec i s = .next t) :
    ∃ bytes, t = ret (.bytes bytes) s := by
  have wireRow {empty : Bool} {bytes : List Byte}
      (hrow : (if empty then .refused .outsideDomain else .next (ret (.bytes bytes) s)) =
        (.next t : Host.Outcome State Fault Refusal)) : ∃ bytes, t = ret (.bytes bytes) s := by
    cases empty <;> cases hrow
    exact ⟨bytes, rfl⟩
  cases i with
  | typeaFlush => exact wireRow h
  | typeaBuffer => exact wireRow h
  | typeb => exact wireRow h
  | segFlush => exact wireRow h
  | segBuffer => exact wireRow h
  | _ => cases hi

/-- What a step that answers a next state did, by the operations that have a code (R91, R94): idle, a self-started
DRAIN, a record's operation, a wire frame, or an illegal op code. -/
theorem step_operation {s t : State} (h : step s = .next t) :
    t = s ∨ exec (.drain (selfDrainTime s)) (selfDrainState s) = .next t ∨
      (∃ op fields rest i, s.schedule = .record op fields :: rest ∧ RecordReads op fields i ∧
        exec i (present rest (nowOf i) s) = .next t) ∨
      (∃ rest now bytes, t = ret (.bytes bytes) (present rest now s)) ∨
      ∃ rest op, t = raise (.illegalOp op) (present rest 0 s) := by
  rcases step_cases h with ⟨-, -, hidle⟩ | ⟨-, -, hdrain⟩ | ⟨c, rest, i, hs, hd, hexec⟩ | ⟨-, rest, op, -, -, hraise⟩
  · exact .inl hidle
  · exact .inr (.inl hdrain)
  · refine .inr (.inr ?_)
    cases c with
    | record op fields => exact .inl ⟨op, fields, rest, i, hs, recordReads_of_decodeRecord hd, hexec⟩
    | wire bytes =>
      obtain ⟨out, ht⟩ := exec_wire_next (formatOf_of_decodeWire hd) hexec
      exact .inr (.inl ⟨rest, nowOf i, out, ht⟩)
  · exact .inr (.inr (.inr (.inr ⟨rest, op, hraise⟩)))

/-! ## What each operation does to CONN (R235) -/

/-- One of R235's two arrows, or no move. -/
def ConnArrow (a b : Conn) : Prop :=
  b = a ∨ (a = .disconnected ∧ b = .connecting) ∨ (a = .connecting ∧ b = .connected)

theorem FanoutFrame.conn {s t : State} (h : FanoutFrame s t) : t.conn = s.conn := by rw [h.rest]

theorem recordSend_conn (fp : Digest) (now : Nat) (s : State) : (recordSend fp now s).conn = s.conn := by
  rw [recordSend_spec]

theorem enqueueFrame_conn (f : Frame) (flush : Bool) (s : State) : (enqueueFrame f flush s).2.conn = s.conn := by
  rcases enqueueFrame_spec f flush s with ⟨-, h⟩ | ⟨-, h⟩ <;> rw [h]

theorem sendCore_conn {f : Frame} {flush : Bool} {now : Nat} {s t : State} {st : Status}
    (h : sendCore f flush now s = .ok (st, t)) : t.conn = s.conn := by
  rcases sendCore_cases f flush now s with ⟨e, -, hcore⟩ | ⟨-, hcore⟩ | ⟨-, fp, u, hu, hcore⟩
  · cases h.symm.trans hcore
  · cases h.symm.trans hcore
    rfl
  · cases h.symm.trans hcore
    rw [recordSend_conn, hu.conn]

theorem execSend_conn {f : Frame} {flush : Bool} {now : Nat} {s t : State} (h : execSend f flush now s = .next t) :
    t.conn = s.conn := by
  unfold execSend at h
  split at h
  · cases h
    rfl
  · split at h
    · cases h
      exact enqueueFrame_conn f flush s
    · split at h
      · cases h
        rfl
      · next st u hcore =>
        cases h
        rw [answer_conn, sendCore_conn hcore]

theorem drainOne_conn (now : Nat) (s : State) : (drainOne now s).conn = s.conn := by
  cases hq : s.q with
  | nil => simp [drainOne, hq]
  | cons e rest =>
    rcases drainOne_cases now s e rest hq with ⟨err, -, h⟩ | h | ⟨fp, u, hu, h⟩
    · rw [h, warn_conn]
    · rw [h]
    · rw [h, recordSend_conn, hu.conn]

theorem execDrain_conn {now : Nat} {s t : State} (h : execDrain now s = .next t) : t.conn = s.conn := by
  unfold execDrain at h
  split at h <;> cases h
  · exact drainOne_conn now s
  · rfl

theorem writeDone_conn (d : Nat) (err : Bool) (s : State) : (writeDone d err s).conn = s.conn := by
  rw [writeDone_spec]

/-- CFG begins opening a block that was unconfigured, hence Disconnected; a refused CFG changes nothing (R225). -/
theorem execCfg_arrow {r : CfgRecord} {s t : State} (hdisc : s.conn = .disconnected ↔ s.cfgd = false)
    (h : execCfg r s = .next t) : ConnArrow s.conn t.conn := by
  unfold execCfg at h
  split at h
  · cases h
    exact .inl rfl
  · next hc =>
    split at h
    · cases h
      exact .inl rfl
    · next c _ =>
      cases h
      refine .inr (.inl ⟨hdisc.mpr (by simpa using hc), ?_⟩)
      rw [answer_conn, construct_spec]

/-- The last open completion of a configured block, which is never Disconnected, connects it (R230, R261). -/
theorem openDone_arrow {d : Nat} {err : Bool} {s : State} (hdisc : s.conn = .disconnected ↔ s.cfgd = false) :
    ConnArrow s.conn (openDone d err s).conn := by
  rcases openDone_cases d err s with ⟨-, h⟩ | ⟨hc, -, -, h⟩
  · exact .inl (by rw [h])
  · rw [h]
    dsimp only
    split
    · cases hconn : s.conn with
      | disconnected => exact absurd (hdisc.mp hconn) (by simp [hc])
      | connecting => exact .inr (.inr ⟨rfl, rfl⟩)
      | connected => exact .inl rfl
    · exact .inl rfl

/-- An operation that a record spells moves CONN along an arrow, or it is RESET. -/
theorem exec_arrow {op : Byte} {fields : List Field} {i : Instr} {s t : State} (hreads : RecordReads op fields i)
    (hdisc : s.conn = .disconnected ↔ s.cfgd = false) (h : exec i s = .next t) :
    ConnArrow s.conn t.conn ∨ (op = 0x00 ∧ fields = [] ∧ t.conn = .disconnected) := by
  cases hreads with
  | reset =>
    cases h
    exact .inr ⟨rfl, rfl, resetState_conn s⟩
  | cfg r => exact .inl (execCfg_arrow hdisc h)
  | send => exact .inl (.inl (execSend_conn h))
  | sendDefault => exact .inl (.inl (execSend_conn h))
  | devOpenDone d err =>
    cases h
    exact .inl (openDone_arrow hdisc)
  | devWriteDone d err =>
    cases h
    exact .inl (.inl (writeDone_conn d err s))
  | drain => exact .inl (.inl (execDrain_conn h))

/-- A block that meets the invariant is Disconnected exactly while it is unconfigured (R32, R225, R261). -/
theorem Inv.disconnected_iff {s : State} (h : Inv s) : s.conn = .disconnected ↔ s.cfgd = false := by
  refine ⟨fun hconn => ?_, fun hc => (h.2 hc).conn⟩
  by_contra hc
  exact (h.1 (by simpa using hc)).opened hconn

/-- Settles O12, by what the step did: only a record's operation can move CONN. -/
theorem connectionFollowsItsArrows : Obligations.ConnectionFollowsItsArrows := by
  unfold Obligations.ConnectionFollowsItsArrows
  intro s t hinv h
  rcases step_operation h with rfl | hdrain | ⟨op, fields, rest, i, hs, hreads, hexec⟩ | ⟨rest, now, bytes, rfl⟩ |
    ⟨rest, op, rfl⟩
  · exact .inl rfl
  · exact .inl ((execDrain_conn hdrain).trans (selfDrainState_conn s))
  · rcases exec_arrow (s := present rest (nowOf i) s) hreads hinv.disconnected_iff hexec with
      (hkept | hopening | hjoined) | ⟨rfl, rfl, hreset⟩
    · exact .inl hkept
    · exact .inr (.inl hopening)
    · exact .inr (.inr (.inl hjoined))
    · exact .inr (.inr (.inr ⟨⟨rest, hs⟩, hreset⟩))
  · exact .inl rfl
  · exact .inl rfl

end Sys2Proof.Machine
end

