-- ==== Sys2Proof/Proofs/ProtocolErrors.lean ====
section
/-! The three protocol errors of R267 (O7): SEND and CFG in the wrong mode, and an op code outside R91. -/

namespace Sys2Proof.Machine

/-! ## Commands in the wrong mode (R187, R225) -/

/-- A SEND is refused before the frame is looked at. -/
theorem exec_send_notConfigured {s : State} (hc : s.cfgd = false) (f : Frame) (flush : Bool) (now : Nat) :
    exec (.send f flush now) s = .next (raise .notConfigured s) := by
  change execSend f flush now s = _
  exact if_pos hc

/-- A second CFG is refused before any check of its record (R257 (a)). -/
theorem exec_cfg_alreadyConfigured {s : State} (hc : s.cfgd = true) (r : CfgRecord) :
    exec (.cfg r) s = .next (raise .alreadyConfigured s) := by
  change execCfg r s = _
  exact if_pos hc

/-! ## Op codes outside the table (R91, R100) -/

/-- The decoder names an op code of no row, whatever the record's fields are. -/
theorem decodeRecord_illegalOp {op : Byte} (hop : op ∉ [0x00, 0x01, 0x02, 0x10, 0x11, 0x20]) (fields : List Field) :
    decodeRecord op fields = .error (.illegalOp op) := by
  simp only [List.mem_cons, List.not_mem_nil, or_false, not_or] at hop
  obtain ⟨hreset, hcfg, hsend, hopenDone, hwriteDone, hdrain⟩ := hop
  simp only [decodeRecord, if_neg hreset, if_neg hcfg, if_neg hsend, if_neg hopenDone, if_neg hwriteDone,
    if_neg hdrain]

/-- An operation presented at time 0 only leaves the schedule: TIME is not moved. -/
theorem present_zero (rest : List Code) (s : State) : present rest 0 s = { s with schedule := rest } := by
  simp [present]

/-- The step on a code whose op code is of no row. -/
theorem step_of_illegalOp {s : State} {c : Code} {rest : List Code} {op : Byte} (hs : s.schedule = c :: rest)
    (hd : decode s.cfg.ptype c = .error (.illegalOp op)) :
    step s = .next (raise (.illegalOp op) { s with schedule := rest }) := by
  simp [step, hs, hd, present_zero]

/-- Settles O7: each error is raised by the first test its operation meets. -/
theorem protocolErrorsChangeNoState : Obligations.ProtocolErrorsChangeNoState := by
  unfold Obligations.ProtocolErrorsChangeNoState
  refine ⟨fun s f flush now hc => ?_, fun s r hc => ?_, fun s op fields rest hs hop => ?_⟩
  · exact exec_send_notConfigured hc f flush now
  · exact exec_cfg_alreadyConfigured hc r
  · exact step_of_illegalOp hs (decodeRecord_illegalOp hop fields)

end Sys2Proof.Machine
end

section
/-! The codec (O1, O2, O3): a record decodes exactly to the operation it spells, and a wire frame has one reading and one
spelling. -/

namespace Sys2Proof.Machine

/-! ## Records (R91 to R94) -/

theorem optNat_of_reads {field : Field} {o : Option Nat} (h : OptionReads Field.nat field o) :
    optNat field = some o := by
  cases h <;> rfl

theorem optFlag_of_reads {field : Field} {o : Option Bool} (h : OptionReads Field.flag field o) :
    optFlag field = some o := by
  cases h <;> rfl

/-- A record decodes to the operation it spells: the converse of `recordReads_of_decodeRecord`. -/
theorem decodeRecord_of_recordReads {op : Byte} {fields : List Field} {i : Instr} (h : RecordReads op fields i) :
    decodeRecord op fields = .ok i := by
  cases h with
  | cfg r hrot hmir hinv hmaxq =>
    simp [decodeRecord, decodeCfg, optNat_of_reads hrot, optFlag_of_reads hmir, optFlag_of_reads hinv,
      optNat_of_reads hmaxq]
  | _ => rfl

theorem decode_record_iff (pt : PanelType) (op : Byte) (fields : List Field) (i : Instr) :
    decode pt (.record op fields) = .ok i ↔ RecordReads op fields i :=
  ⟨recordReads_of_decodeRecord, decodeRecord_of_recordReads⟩

/-- Only the OP and the WIRE rows have a code (30_encoding.md, its opening). -/
theorem formatOf_of_encode {i : Instr} {c : Code} (h : encode i = some c) : formatOf i = .op ∨ formatOf i = .wire := by
  cases i <;> simp [encode] at h <;> simp [formatOf]

/-- The encoder writes an OP row as a record that spells it. -/
theorem recordReads_of_encode {i : Instr} {c : Code} (hi : formatOf i = .op) (h : encode i = some c) :
    ∃ op fields, c = .record op fields ∧ RecordReads op fields i := by
  cases i with
  | reset => cases h; exact ⟨_, _, rfl, .reset⟩
  | cfg r =>
    cases h
    exact ⟨_, _, rfl, .cfg r (optionReads_natField _) (optionReads_flagField _) (optionReads_flagField _)
      (optionReads_natField _)⟩
  | send f flush now => cases h; exact ⟨_, _, rfl, .send f flush now⟩
  | devOpenDone d err => cases h; exact ⟨_, _, rfl, .devOpenDone d err⟩
  | devWriteDone d err => cases h; exact ⟨_, _, rfl, .devWriteDone d err⟩
  | drain now => cases h; exact ⟨_, _, rfl, .drain now⟩
  | _ => cases hi

/-! ## Type A and Segmented frames (R95, R97, R102) -/

/-- The row of a Type A frame with this flush flag. -/
def typeARow (flush : Bool) (addr : Byte) (data : List Byte) : Instr :=
  if flush then .typeaFlush addr data else .typeaBuffer addr data

/-- The row of a Segmented frame with this flush flag. -/
def segRow (flush : Bool) (addr : Byte) (digits : List (BitVec 7)) : Instr :=
  if flush then .segFlush addr digits else .segBuffer addr digits

/-- The row that the bytes after the start byte stand for, once the frame's fixed bytes have been checked. -/
theorem decodeTypeA_frame (pt : PanelType) (flush : Bool) (addr : Byte) {data : List Byte} (hd : data ≠ []) :
    decodeTypeA pt (flushByte flush :: addr :: (data ++ [endA])) =
      if pt = .seg then
        if data.all (fun b => b.toNat < 128) then .ok (segRow flush addr (data.map (BitVec.setWidth 7)))
        else .error .digitBit7
      else .ok (typeARow flush addr data) := by
  cases flush <;> simp [decodeTypeA, splitEnd_append, hd, flushByte, segRow, typeARow]

/-- What the decoder takes after the start byte `0x80` is flushByte, address, data and the end byte. -/
theorem frame_of_decodeTypeA {pt : PanelType} {bytes : List Byte} {i : Instr} (h : decodeTypeA pt bytes = .ok i) :
    ∃ flush addr data, data ≠ [] ∧ bytes = flushByte flush :: addr :: (data ++ [endA]) := by
  unfold decodeTypeA at h
  split at h
  · next fb addr rest =>
    split at h
    · cases h
    · next hflush =>
      split at h
      · cases h
      · next data e hsplit =>
        split at h
        · cases h
        · next hend =>
          split at h
          · cases h
          · next hdata =>
            obtain rfl : e = endA := not_not.mp hend
            have hfb : ∃ flush, fb = flushByte flush := by
              by_cases hf : fb = flushByte true
              · exact ⟨true, hf⟩
              · exact ⟨false, not_not.mp fun hb => hflush ⟨hf, hb⟩⟩
            obtain ⟨flush, rfl⟩ := hfb
            refine ⟨flush, addr, data, fun hnil => hdata (by simp [hnil]), ?_⟩
            rw [eq_append_of_splitEnd hsplit]
  · cases h

/-- A Type A frame is read back by a Display whose panels are not Segmented. -/
theorem decode_typeAFrame {pt : PanelType} (hpt : pt ≠ .seg) (flush : Bool) (addr : Byte) {data : List Byte}
    (hd : data ≠ []) : decode pt (.wire (typeAFrame flush addr data)) = .ok (typeARow flush addr data) :=
  (decodeTypeA_frame pt flush addr hd).trans (if_neg hpt)

/-- Digits sent as bytes have bit 7 clear. -/
theorem digitBytes_lt (digits : List (BitVec 7)) :
    (digits.map digitByte).all (fun b => b.toNat < 128) = true := by
  simp [digitByte_spec]

/-- Digits sent as bytes are read back (R97). -/
theorem map_setWidth_digitByte (digits : List (BitVec 7)) :
    (digits.map digitByte).map (BitVec.setWidth 7) = digits := by
  rw [List.map_map]
  exact (List.map_congr_left fun v _ => (digitByte_spec v).2).trans (List.map_id digits)

/-- Bytes with bit 7 clear are the bytes of their low seven bits. -/
theorem map_digitByte_setWidth {data : List Byte} (h : data.all (fun b => b.toNat < 128) = true) :
    (data.map (BitVec.setWidth 7)).map digitByte = data := by
  rw [List.map_map]
  refine (List.map_congr_left fun b hb => ?_).trans (List.map_id data)
  have hb : b.toNat < 128 := by simpa using List.all_eq_true.mp h b hb
  refine BitVec.eq_of_toNat_eq ?_
  simp only [Function.comp_apply, digitByte, BitVec.toNat_setWidth, id_eq]
  omega

/-- A Segmented frame is read back by a SegmentDisplay. -/
theorem decode_segFrame (flush : Bool) (addr : Byte) {digits : List (BitVec 7)} (hd : digits ≠ []) :
    decode .seg (.wire (typeAFrame flush addr (digits.map digitByte))) = .ok (segRow flush addr digits) := by
  have hread := decodeTypeA_frame .seg flush addr (data := digits.map digitByte) (by simpa using hd)
  rw [if_pos rfl, if_pos (digitBytes_lt digits), map_setWidth_digitByte] at hread
  exact hread

/-! ## Type B frames (R96) -/

/-- A Type B frame is read back, whatever the panel type. -/
theorem decode_typeBFrame (pt : PanelType) (addr : Byte) {data : List Byte} (hd : data ≠ []) :
    decode pt (.wire (typeBFrame addr data)) = .ok (.typeb addr data) := by
  have hunhex : unhex (typeBCommand addr data) = some (addr :: BitVec.ofNat 8 data.length :: data) :=
    unhex_hexExpand _
  change decodeTypeB (typeBCommand addr data ++ [endB] ++ hexExpand [chkSum (typeBCommand addr data)]) = _
  have hsum : ∀ v : Byte, hexExpand [v] = [hexDigit (v.toNat / 16)] ++ [hexDigit (v.toNat % 16)] := fun _ => rfl
  rw [hsum, ← List.append_assoc]
  simp only [decodeTypeB, splitEnd_append, hunhex]
  simp [hd, hsum]

/-- What the decoder takes after the start byte `0x02` is a Type B frame of the row it reads. -/
theorem frame_of_decodeTypeB {bytes : List Byte} {i : Instr} (h : decodeTypeB bytes = .ok i) :
    ∃ addr data, data ≠ [] ∧ i = .typeb addr data ∧ startB :: bytes = typeBFrame addr data := by
  unfold decodeTypeB at h
  split at h
  · cases h
  · next bytes1 lo hlo =>
    split at h
    · cases h
    · next bytes2 hi hhi =>
      split at h
      · cases h
      · next command e hcommand =>
        split at h
        · cases h
        · next hend =>
          split at h
          · next addr len data hunhex =>
            split_ifs at h with hlen hdata hsum
            cases h
            obtain rfl : e = endB := not_not.mp hend
            obtain rfl : len = BitVec.ofNat 8 data.length := not_not.mp hlen
            obtain rfl : typeBCommand addr data = command := hexExpand_unhex _ _ hunhex
            refine ⟨addr, data, fun hnil => hdata (by simp [hnil]), rfl, ?_⟩
            rw [eq_append_of_splitEnd hlo, eq_append_of_splitEnd hhi, eq_append_of_splitEnd hcommand, typeBFrame,
              ← not_not.mp hsum]
            simp
          · cases h
          · cases h

/-! ## The two directions -/

/-- Settles O1: a record is read as R92 to R94 word it and a frame as R95 to R97 do, row by row. -/
theorem decodeEncodeRoundTrip : Obligations.DecodeEncodeRoundTrip := by
  unfold Obligations.DecodeEncodeRoundTrip
  refine ⟨fun pt i c hwf hfamily h => ?_, fun pt f now => (decode_record_iff pt _ _ _).mpr (.sendDefault f now),
    decode_record_iff⟩
  have nonempty {α : Type} {l : List α} (hl : (!l.isEmpty) = true) : l ≠ [] := by simpa using hl
  rcases formatOf_of_encode h with hformat | hformat
  · obtain ⟨op, fields, rfl, hreads⟩ := recordReads_of_encode hformat h
    exact (decode_record_iff pt op fields i).mpr hreads
  · cases i with
    | typeaFlush addr data =>
      cases h
      exact decode_typeAFrame (by simpa [familyAgrees] using hfamily) true addr (nonempty hwf)
    | typeaBuffer addr data =>
      cases h
      exact decode_typeAFrame (by simpa [familyAgrees] using hfamily) false addr (nonempty hwf)
    | typeb addr data =>
      cases h
      exact decode_typeBFrame pt addr (nonempty hwf)
    | segFlush addr digits =>
      cases h
      obtain rfl : pt = .seg := by simpa [familyAgrees] using hfamily
      exact decode_segFrame true addr (nonempty hwf)
    | segBuffer addr digits =>
      cases h
      obtain rfl : pt = .seg := by simpa [familyAgrees] using hfamily
      exact decode_segFrame false addr (nonempty hwf)
    | _ => cases hformat

/-- The row of a Type A frame, as the encoder and the checks see it. -/
theorem typeARow_encoded {pt : PanelType} (hpt : pt ≠ .seg) (flush : Bool) (addr : Byte) {data : List Byte}
    (hd : data ≠ []) :
    wf (typeARow flush addr data) = true ∧ familyAgrees pt (typeARow flush addr data) = true ∧
      encode (typeARow flush addr data) = some (.wire (typeAFrame flush addr data)) := by
  cases flush <;> simp [typeARow, wf, familyAgrees, encode, hpt, hd]

/-- The row of a Segmented frame, as the encoder and the checks see it. -/
theorem segRow_encoded (flush : Bool) (addr : Byte) {digits : List (BitVec 7)} (hd : digits ≠ []) :
    wf (segRow flush addr digits) = true ∧ familyAgrees .seg (segRow flush addr digits) = true ∧
      encode (segRow flush addr digits) = some (.wire (typeAFrame flush addr (digits.map digitByte))) := by
  cases flush <;> simp [segRow, wf, familyAgrees, encode, hd]

/-- Settles O2: the decoder's checks leave no byte of a frame free. -/
theorem wireFrameReadingIsUnique : Obligations.WireFrameReadingIsUnique := by
  unfold Obligations.WireFrameReadingIsUnique
  intro pt bytes i h
  change decodeWire pt bytes = .ok i at h
  unfold decodeWire at h
  split at h
  · cases h
  · next b rest =>
    split_ifs at h with hA hB
    · obtain ⟨flush, addr, data, hd, rfl⟩ := frame_of_decodeTypeA h
      rw [hA, show startA :: flushByte flush :: addr :: (data ++ [endA]) = typeAFrame flush addr data from rfl]
      rw [decodeTypeA_frame pt flush addr hd] at h
      split_ifs at h with hseg hdigits <;> cases h
      · subst hseg
        have hrow := segRow_encoded flush addr (digits := data.map (BitVec.setWidth 7)) (by simpa using hd)
        rwa [map_digitByte_setWidth hdigits] at hrow
      · exact typeARow_encoded hseg flush addr hd
    · obtain ⟨addr, data, hd, rfl, hframe⟩ := frame_of_decodeTypeB h
      rw [hB, hframe]
      exact ⟨by simpa [wf] using hd, rfl, rfl⟩

/-- Settles O3: the record by R91's table, the frames by evaluating the decoder on them. -/
theorem sampleWordsDecode : Obligations.SampleWordsDecode := by
  unfold Obligations.SampleWordsDecode
  refine ⟨(decode_record_iff _ _ _ _).mpr .reset, (decode_record_iff _ _ _ _).mpr (.devWriteDone 3 true), ?_, ?_, ?_⟩
  · exact decode_typeAFrame (by decide) true 5 (data := [0x55, 0x08, 0x01]) (by decide)
  · exact decode_segFrame false 7 (digits := [0x6F, 0x30]) (by decide)
  · exact decode_typeBFrame .b 5 (data := [0x55, 0x08, 0x01]) (by decide)

end Sys2Proof.Machine
end

section
/-! Construction (O17, O18, O19): the six checks of CHECKCFG and the registers of a record that passes them, the panel
registers, and the open requests. -/

namespace Sys2Proof.Machine

/-! ## The checks (R226) -/

/-- The test of check 1. -/
theorem emptyLayout_iff (r : CfgRecord) :
    (r.layout.isEmpty || (r.layout.headD []).isEmpty) = true ↔ emptyLayout r := by
  unfold emptyLayout
  cases r.layout <;> simp

/-- The test of check 2, on a layout that has a row. -/
theorem isRagged_iff {r : CfgRecord} (hne : ¬emptyLayout r) : isRagged r.layout = true ↔ raggedLayout r := by
  unfold isRagged raggedLayout
  cases hl : r.layout with
  | nil => exact absurd (.inl hl) hne
  | cons first rows => simp

/-- The test of check 4. -/
theorem any_badDescriptor_iff (r : CfgRecord) : r.devices.any (fun d => !d.ok) = true ↔ ∃ d, badDescriptor r d := by
  simp only [List.any_eq_true, List.mem_iff_getElem?, badDescriptor, Bool.not_eq_true']
  exact ⟨fun ⟨e, ⟨d, hd⟩, he⟩ => ⟨d, e, hd, he⟩, fun ⟨d, e, hd, he⟩ => ⟨e, ⟨d, hd⟩, he⟩⟩

/-- The test of check 5. -/
theorem any_missingAddresses_iff (r : CfgRecord) :
    (1 < r.devices.length && r.devices.any (fun d => d.addrs.isNone)) = true ↔ ∃ d, missingAddresses r d := by
  simp only [Bool.and_eq_true, decide_eq_true_eq, List.any_eq_true, List.mem_iff_getElem?, missingAddresses,
    Option.isNone_iff_eq_none]
  exact ⟨fun ⟨hl, e, ⟨d, hd⟩, he⟩ => ⟨d, hl, e, hd, he⟩, fun ⟨d, hl, e, hd, he⟩ => ⟨hl, e, ⟨d, hd⟩, he⟩⟩

/-- The device that check 4 records fails it. -/
theorem badDescriptor_blamed {r : CfgRecord} (h : ∃ d, badDescriptor r d) :
    badDescriptor r (blamed (failing (fun d => !d.ok) r.devices)) := by
  have hmem := blamed_mem (any_eq_true_iff_failing.mp ((any_badDescriptor_iff r).mpr h))
  simpa [mem_failing, badDescriptor] using hmem

/-- The device that check 5 records fails it. -/
theorem missingAddresses_blamed {r : CfgRecord} (h : ∃ d, missingAddresses r d) :
    missingAddresses r (blamed (failing (fun d => d.addrs.isNone) r.devices)) := by
  obtain ⟨hlen, hany⟩ := Bool.and_eq_true_iff.mp ((any_missingAddresses_iff r).mpr h)
  have hmem := blamed_mem (any_eq_true_iff_failing.mp hany)
  exact ⟨by simpa using hlen, by simpa [mem_failing] using hmem⟩

theorem addressOk_iff (a : Int) : addressOk a = true ↔ 0 ≤ a ∧ a ≤ 255 := by simp [addressOk]

theorem sizesOk_iff (r : CfgRecord) (pt : PanelType) :
    sizesOk r pt = true ↔
      1 ≤ r.pw ∧ 1 ≤ r.ph ∧ (pt = .seg ∨ r.ph ≤ 8) ∧ ∀ row ∈ r.layout, ∀ a ∈ row, 0 ≤ a ∧ a ≤ 255 := by
  simp [sizesOk, addressOk_iff, and_assoc]

theorem optionsOf_eq_some {r : CfgRecord} {rot : Rotation} {pt : PanelType} :
    optionsOf r = some (rot, pt) ↔
      rotationOf (r.rot.getD 0) = some rot ∧ r.ptype = .known pt ∧ sizesOk r pt = true := by
  cases hrot : rotationOf (r.rot.getD 0) with
  | none => simp [optionsOf, Config.defaultRot, hrot]
  | some rot' =>
    cases hpt : r.ptype with
    | other => simp [optionsOf, hpt, panelTypeOf]
    | known pt' =>
      by_cases hsizes : sizesOk r pt' = true
      · simp only [optionsOf, Config.defaultRot, hrot, hpt, panelTypeOf, if_pos hsizes, Option.some.injEq,
          Prod.mk.injEq, PTypeField.known.injEq]
        exact ⟨fun ⟨h1, h2⟩ => ⟨h1, h2, h2 ▸ hsizes⟩, fun ⟨h1, h2, _⟩ => ⟨h1, h2⟩⟩
      · simp only [optionsOf, Config.defaultRot, hrot, hpt, panelTypeOf, if_neg hsizes, PTypeField.known.injEq]
        exact ⟨nofun, fun ⟨_, h2, h3⟩ => absurd h3 (h2 ▸ hsizes)⟩

/-- Check 6's test on ROT, whose default is legal (R4). -/
theorem rotationOf_getD_eq_none (o : Option Nat) :
    rotationOf (o.getD 0) = none ↔ ∃ degrees, o = some degrees ∧ degrees ∉ [0, 90, 180, 270] := by
  rw [rotationOf_eq_none]
  cases o <;> simp

/-- The sizes and addresses of a record with a known PTYPE fail check 6. -/
theorem sizesOk_eq_false_iff (r : CfgRecord) (pt : PanelType) :
    sizesOk r pt = false ↔
      r.pw < 1 ∨ r.ph < 1 ∨ ((pt = .a ∨ pt = .b) ∧ 8 < r.ph) ∨ ∃ row ∈ r.layout, ∃ a ∈ row, a < 0 ∨ 255 < a := by
  have hdot : ¬pt = .seg ↔ pt = .a ∨ pt = .b := by cases pt <;> simp
  rw [← Bool.not_eq_true, sizesOk_iff]
  simp only [not_and_or, not_or, not_forall, not_le, exists_prop, hdot]

/-- The test of check 6. -/
theorem optionsOf_eq_none_iff (r : CfgRecord) : optionsOf r = none ↔ badOption r := by
  unfold badOption
  rw [← rotationOf_getD_eq_none]
  cases hrot : rotationOf (r.rot.getD 0) with
  | none => simp [optionsOf, Config.defaultRot, hrot]
  | some rot =>
    cases hpt : r.ptype with
    | other => simp [optionsOf, hpt, panelTypeOf]
    | known pt =>
      have hsizes : optionsOf r = none ↔ sizesOk r pt = false := by
        simp [optionsOf, Config.defaultRot, hrot, hpt, panelTypeOf]
      rw [hsizes, sizesOk_eq_false_iff]
      simp

/-! ## The registers of a record that passes (R226) -/

/-- CHECKCFG lets a record pass when none of the six checks fails. -/
theorem checkCfg_passes {r : CfgRecord} (h1 : ¬emptyLayout r) (h2 : ¬raggedLayout r) (h3 : r.devices ≠ [])
    (h4 : ¬∃ d, badDescriptor r d) (h5 : ¬∃ d, missingAddresses r d) (h6 : ¬badOption r) :
    ∃ c, checkCfg r = .ok c := by
  obtain ⟨⟨rot, pt⟩, hoptions⟩ := Option.ne_none_iff_exists'.mp (mt (optionsOf_eq_none_iff r).mp h6)
  refine ⟨regsOf r rot pt, ?_⟩
  unfold checkCfg
  rw [if_neg (mt (emptyLayout_iff r).mp h1), if_neg (mt (isRagged_iff h1).mp h2), if_neg (by simpa using h3),
    if_neg (mt (any_badDescriptor_iff r).mp h4), if_neg (mt (any_missingAddresses_iff r).mp h5), hoptions]

/-- Rows that are not ragged have one length. -/
theorem row_length_of_not_ragged {layout : List (List Int)} (h : isRagged layout = false) :
    ∀ row ∈ layout, row.length = (layout.headD []).length := by
  simpa [isRagged] using h

theorem devAddrOf_eq_all {e : DeviceEntry} : devAddrOf e = .all ↔ e.addrs = none := by
  unfold devAddrOf
  cases e.addrs <;> simp

/-- A device serves every address without a list, and exactly its list's with one (R67, R226). -/
theorem serves_devAddrOf (e : DeviceEntry) (a : Byte) :
    serves (devAddrOf e) a = true ↔
      e.addrs = none ∨ ∃ addrs, e.addrs = some addrs ∧ Int.ofNat a.toNat ∈ addrs := by
  unfold devAddrOf
  cases e.addrs <;> simp [serves, mem_addrSet]

/-- A checked record is legal (R21, R226). -/
theorem legal_of_checkCfg {r : CfgRecord} {c : CfgRegs} (h : checkCfg r = .ok c) : CfgLegal c := by
  obtain ⟨rot, pt, hoptions, rfl, hlayout, hhead, hragged, hdevices, halone⟩ := checkCfg_ok h
  obtain ⟨-, -, hsizes⟩ := optionsOf_eq_some.mp hoptions
  obtain ⟨hpw, hph, hdot, -⟩ := (sizesOk_iff r pt).mp hsizes
  refine ⟨hpw, hph, fun hseg => hdot.resolve_left hseg, List.length_map _, List.length_pos_iff.mpr hlayout, ?_,
    List.length_pos_iff.mpr hhead, List.length_map _, List.length_pos_iff.mpr hdevices, fun hlen hall => ?_⟩
  · intro row hrow
    obtain ⟨row', hrow', rfl⟩ := List.mem_map.mp hrow
    rw [List.length_map]
    exact row_length_of_not_ragged hragged row' hrow'
  · obtain ⟨e, he, haddr⟩ := List.mem_map.mp hall
    exact halone hlen e he (devAddrOf_eq_all.mp haddr)

/-- An address in range is kept by its byte. -/
theorem ofInt_toNat {a : Int} (h0 : 0 ≤ a) (h255 : a ≤ 255) : Int.ofNat (BitVec.ofInt 8 a).toNat = a := by
  simp only [BitVec.toNat_ofInt, Int.ofNat_eq_natCast]
  omega

/-- The registers of a checked record are those R226 derives (R4's defaults, log 23). -/
theorem registersOf_of_checkCfg {r : CfgRecord} {c : CfgRegs} (h : checkCfg r = .ok c) : RegistersOf r c := by
  obtain ⟨rot, pt, hoptions, rfl, -, -, hragged, -, -⟩ := checkCfg_ok h
  obtain ⟨hrot, hpt, hsizes⟩ := optionsOf_eq_some.mp hoptions
  obtain ⟨-, -, -, haddrs⟩ := (sizesOk_iff r pt).mp hsizes
  refine ⟨rotDegrees_of_rotationOf hrot, rfl, rfl, hpt, rfl, rfl, rfl, rfl, rfl, row_length_of_not_ragged hragged, ?_,
    rfl, fun d e he a => ?_⟩
  · simp only [regsOf, List.map_map]
    refine (List.map_congr_left fun row hrow => ?_).trans (List.map_id r.layout)
    simp only [Function.comp_apply, List.map_map]
    refine (List.map_congr_left fun a ha => ?_).trans (List.map_id row)
    exact ofInt_toNat (haddrs row hrow a ha).1 (haddrs row hrow a ha).2
  · have hd : devAddrAt (regsOf r rot pt) d = devAddrOf e := by
      simp [devAddrAt, regsOf, List.getD_eq_getElem?_getD, he]
    rw [hd]
    exact serves_devAddrOf e a

/-! ## CHECKCFG (R226) -/

theorem exec_checkcfg_error {r : CfgRecord} {e : Err} (h : checkCfg r = .error e) (s : State) :
    exec (.checkcfg r) s = .next (raise e s) := by
  change execCheckcfg r s = _
  simp [execCheckcfg, h]

theorem exec_checkcfg_ok {r : CfgRecord} {c : CfgRegs} (h : checkCfg r = .ok c) (s : State) :
    exec (.checkcfg r) s = .next (ret (.regs c) s) := by
  change execCheckcfg r s = _
  simp [execCheckcfg, h]

/-- Settles O18: each clause walks CHECKCFG's conditionals as far as its check. -/
theorem configurationChecksInOrder : Obligations.ConfigurationChecksInOrder := by
  unfold Obligations.ConfigurationChecksInOrder
  intro s r
  have raises {e : Err} (h : checkCfg r = .error e) : exec (.checkcfg r) s = .next (raise e s) :=
    exec_checkcfg_error h s
  have pass1 (h : ¬emptyLayout r) := mt (emptyLayout_iff r).mp h
  have pass2 (h1 : ¬emptyLayout r) (h2 : ¬raggedLayout r) := mt (isRagged_iff h1).mp h2
  have pass3 (h : r.devices ≠ []) : ¬r.devices.isEmpty = true := by simpa using h
  have pass4 (h : ¬∃ d, badDescriptor r d) := mt (any_badDescriptor_iff r).mp h
  have pass5 (h : ¬∃ d, missingAddresses r d) := mt (any_missingAddresses_iff r).mp h
  have some_device {d : Nat} {e : DeviceEntry} (h : r.devices[d]? = some e) : r.devices ≠ [] :=
    List.ne_nil_of_mem (List.mem_of_getElem? h)
  refine ⟨fun h1 => raises ?_, fun h1 h2 => raises ?_, fun h1 h2 h3 => raises ?_,
    fun h1 h2 h4 => ⟨_, badDescriptor_blamed h4, raises ?_⟩,
    fun h1 h2 h4 h5 => ⟨_, missingAddresses_blamed h5, raises ?_⟩, fun h1 h2 h3 h4 h5 h6 => raises ?_,
    fun h1 h2 h3 h4 h5 h6 => ?_⟩
  · rw [checkCfg, if_pos ((emptyLayout_iff r).mpr h1)]
  · rw [checkCfg, if_neg (pass1 h1), if_pos ((isRagged_iff h1).mpr h2)]
  · rw [checkCfg, if_neg (pass1 h1), if_neg (pass2 h1 h2), if_pos (by simp [h3])]
  · obtain ⟨d, e, hd, -⟩ := id h4
    rw [checkCfg, if_neg (pass1 h1), if_neg (pass2 h1 h2), if_neg (pass3 (some_device hd)),
      if_pos ((any_badDescriptor_iff r).mpr h4)]
  · obtain ⟨d, -, e, hd, -⟩ := id h5
    rw [checkCfg, if_neg (pass1 h1), if_neg (pass2 h1 h2), if_neg (pass3 (some_device hd)), if_neg (pass4 h4),
      if_pos ((any_missingAddresses_iff r).mpr h5)]
  · rw [checkCfg, if_neg (pass1 h1), if_neg (pass2 h1 h2), if_neg (pass3 h3), if_neg (pass4 h4), if_neg (pass5 h5),
      (optionsOf_eq_none_iff r).mpr h6]
  · obtain ⟨c, hc⟩ := checkCfg_passes h1 h2 h3 h4 h5 h6
    exact ⟨c, hc, legal_of_checkCfg hc, registersOf_of_checkCfg hc, exec_checkcfg_ok hc s⟩

/-! ## CFG, BUILDPANELS and BEGINOPEN (R225, R227, R228) -/

/-- The registers BUILDPANELS creates: one for each layout cell, of the configured variant and size (R227). -/
theorem freshPanels_shaped (c : CfgRegs) (draw : Nat) :
    ∀ row ∈ tabulate c.rows c.cols (freshPanel c draw), row.length = c.cols ∧ ∀ p ∈ row, panelShaped c p := by
  intro row hrow
  refine ⟨tabulate_row_length hrow, fun p hp => ?_⟩
  obtain ⟨r, -, rfl⟩ := List.mem_map.mp hrow
  obtain ⟨col, -, rfl⟩ := List.mem_map.mp hp
  exact freshPanel_shaped c draw r col

theorem exec_cfg_error {r : CfgRecord} {e : Err} {s : State} (hc : s.cfgd = false) (h : checkCfg r = .error e) :
    exec (.cfg r) s = .next (raise e s) := by
  change execCfg r s = _
  simp [execCfg, hc, h]

theorem exec_cfg_ok {r : CfgRecord} {c : CfgRegs} {s : State} (hc : s.cfgd = false) (h : checkCfg r = .ok c) :
    exec (.cfg r) s = .next (answer .ok (construct c s)) := by
  change execCfg r s = _
  simp [execCfg, hc, h]

/-- Settles O17: CFG is refused, or raises CHECKCFG's error, or constructs. -/
theorem cfgConstructsDisplay : Obligations.CfgConstructsDisplay := by
  unfold Obligations.CfgConstructsDisplay
  intro s r
  refine ⟨fun hc => exec_cfg_alreadyConfigured hc r, fun e hc he => exec_cfg_error hc he, fun c hc hok => ?_⟩
  refine ⟨tabulate c.rows c.cols (freshPanel c s.freeCtr), tabulate_length _ _ _, freshPanels_shaped c s.freeCtr, ?_⟩
  rw [exec_cfg_ok hc hok, construct_spec]
  rfl

theorem exec_buildpanels {s : State} (hc : s.cfgd = true) :
    exec .buildpanels s = .next (ret .nothing (buildPanels s)) := if_pos hc

theorem exec_beginopen {s : State} (hc : s.cfgd = true) :
    exec .beginopen s = .next (ret .nothing (beginOpen s)) := if_pos hc

/-- Settles O19: the two rows run the parts of CFG's construction. -/
theorem panelsCreatedAndOpensRequested : Obligations.PanelsCreatedAndOpensRequested := by
  unfold Obligations.PanelsCreatedAndOpensRequested
  intro s hc
  refine ⟨⟨tabulate s.cfg.rows s.cfg.cols (freshPanel s.cfg s.freeCtr), tabulate_length _ _ _,
    freshPanels_shaped s.cfg s.freeCtr, exec_buildpanels hc⟩, ?_⟩
  rw [exec_beginopen hc, beginOpen_spec]
  rfl

end Sys2Proof.Machine
end

section
/-! The send path (O22 to O27, O31, O32, O34, O35): a core in one equation for both kinds of Display, what it keeps, the
fan-out it dispatches, and the geometry of the prepared grids. -/

namespace Sys2Proof.Machine

/-! ## The core of a send (R187, R188, R215) -/

/-- The fingerprint that DEDUP compares: the frame's, or for a SegmentDisplay the joint one of its sub-frames (R182,
R212). -/
def sendDigest (c : CfgRegs) (f : Frame) : Digest :=
  if c.ptype = .seg then fingerprint [(segPrep c f).subV, (segPrep c f).subH] else fingerprint [f]

/-- The fan-out of a validated frame that is no duplicate (R185, R214). -/
def sendFanout (f : Frame) (flush : Bool) (s : State) : State :=
  if s.cfg.ptype = .seg then fanoutSeg (segPrep s.cfg f).gv (segPrep s.cfg f).gh flush s
  else fanoutDot (prepGrid s.cfg f) flush s

theorem sendDigest_dot {c : CfgRegs} (hp : c.ptype ≠ .seg) (f : Frame) : sendDigest c f = fingerprint [f] := if_neg hp

theorem sendDigest_seg {c : CfgRegs} (hp : c.ptype = .seg) (f : Frame) :
    sendDigest c f = fingerprint [(segPrep c f).subV, (segPrep c f).subH] := if_pos hp

theorem sendFanout_dot {s : State} (hp : s.cfg.ptype ≠ .seg) (f : Frame) (flush : Bool) :
    sendFanout f flush s = fanoutDot (prepGrid s.cfg f) flush s := if_neg hp

theorem sendFanout_seg {s : State} (hp : s.cfg.ptype = .seg) (f : Frame) (flush : Bool) :
    sendFanout f flush s = fanoutSeg (segPrep s.cfg f).gv (segPrep s.cfg f).gh flush s := if_pos hp

theorem sendFanout_frame (f : Frame) (flush : Bool) (s : State) : FanoutFrame s (sendFanout f flush s) := by
  unfold sendFanout
  split
  · exact fanoutSeg_frame _ _ flush s
  · exact fanoutDot_frame _ flush s

/-- The core on a validated frame, for both kinds of Display: a duplicate, or the fan-out and RECORD. -/
theorem sendCore_valid {f : Frame} {s : State} (hv : validateFrame s.cfg f = none) (flush : Bool) (now : Nat) :
    sendCore f flush now s =
      if s.lastFp = some (sendDigest s.cfg f) then .ok (.duplicate, s)
      else .ok (.dispatched, recordSend (sendDigest s.cfg f) now (sendFanout f flush s)) := by
  by_cases hp : s.cfg.ptype = .seg
  · simp only [sendCore, if_pos hp, segCore, hv, isDuplicate_iff, sendDigest_seg hp, sendFanout_seg hp]
  · simp only [sendCore, if_neg hp, dotCore, hv, isDuplicate_iff, sendDigest_dot hp, sendFanout_dot hp]

theorem sendCore_duplicate {f : Frame} {s : State} (hv : validateFrame s.cfg f = none)
    (hfp : s.lastFp = some (sendDigest s.cfg f)) (flush : Bool) (now : Nat) :
    sendCore f flush now s = .ok (.duplicate, s) := (sendCore_valid hv flush now).trans (if_pos hfp)

theorem sendCore_dispatched {f : Frame} {s : State} (hv : validateFrame s.cfg f = none)
    (hfp : s.lastFp ≠ some (sendDigest s.cfg f)) (flush : Bool) (now : Nat) :
    sendCore f flush now s =
      .ok (.dispatched, recordSend (sendDigest s.cfg f) now (sendFanout f flush s)) :=
  (sendCore_valid hv flush now).trans (if_neg hfp)

/-- What a dispatch leaves unchanged: all but OUT, the registers, LAST_FP, LAST_TS, W_RATE's latch and WARNLOG. -/
structure DispatchKeeps (s t : State) : Prop where
  cfgd : t.cfgd = s.cfgd
  cfg : t.cfg = s.cfg
  conn : t.conn = s.conn
  q : t.q = s.q
  result : t.result = s.result
  schedule : t.schedule = s.schedule

theorem FanoutFrame.recordSend_keeps {s t : State} (h : FanoutFrame s t) (fp : Digest) (now : Nat) :
    DispatchKeeps s (recordSend fp now t) := by
  rw [recordSend_spec, h.rest]
  exact ⟨rfl, rfl, rfl, rfl, rfl, rfl⟩

/-- A validated frame always ends in a status, and then LAST_FP is its fingerprint. -/
theorem sendCore_valid_ok {f : Frame} {s : State} (hv : validateFrame s.cfg f = none) (flush : Bool) (now : Nat) :
    ∃ st t, sendCore f flush now s = .ok (st, t) ∧ DispatchKeeps s t ∧ t.lastFp = some (sendDigest s.cfg f) := by
  by_cases hfp : s.lastFp = some (sendDigest s.cfg f)
  · exact ⟨_, _, sendCore_duplicate hv hfp flush now, ⟨rfl, rfl, rfl, rfl, rfl, rfl⟩, hfp⟩
  · exact ⟨_, _, sendCore_dispatched hv hfp flush now, (sendFanout_frame f flush s).recordSend_keeps _ now,
      by rw [recordSend_spec]⟩

/-! ## The rows that run a core -/

theorem exec_send_ok {f : Frame} {flush : Bool} {now : Nat} {s t : State} {st : Status} (hc : s.cfgd = true)
    (hconn : s.conn = .connected) (hcore : sendCore f flush now s = .ok (st, t)) :
    exec (.send f flush now) s = .next (answer st t) := by
  change execSend f flush now s = _
  simp [execSend, hc, hconn, hcore]

theorem exec_dotcore_ok {f : Frame} {flush : Bool} {now : Nat} {s t : State} {st : Status} (hc : s.cfgd = true)
    (hp : s.cfg.ptype ≠ .seg) (hcore : sendCore f flush now s = .ok (st, t)) :
    exec (.dotcore f flush now) s = .next (ret (.status st) t) := by
  rw [sendCore, if_neg hp] at hcore
  change execDotcore f flush now s = _
  simp [execDotcore, hc, hp, hcore]

theorem exec_segcore_ok {f : Frame} {flush : Bool} {now : Nat} {s t : State} {st : Status} (hc : s.cfgd = true)
    (hp : s.cfg.ptype = .seg) (hcore : sendCore f flush now s = .ok (st, t)) :
    exec (.segcore f flush now) s = .next (ret (.status st) t) := by
  rw [sendCore, if_pos hp] at hcore
  change execSegcore f flush now s = _
  simp [execSegcore, hc, hp, hcore]

/-! ## Dispatched frames (R185, R214) -/

theorem Configured.shaped {s : State} (k : Configured s) : Shaped s := ⟨k.panel_rows, k.panel_cols⟩

/-- FANOUT in closed form (R185). -/
theorem fanoutDot_closed {s : State} (hs : Shaped s) (hp : s.cfg.ptype ≠ .seg) (g : Grid) (flush : Bool) :
    FannedOut s (fanoutDot g flush s) (dotFrame s.cfg g flush) (dotPanel s.cfg g) :=
  fanoutAll_closed (putSlice_writesCells hp g flush) hs

/-- SEGFANOUT in closed form (R214). -/
theorem fanoutSeg_closed {s : State} (hs : Shaped s) (hp : s.cfg.ptype = .seg) (gv gh : Grid) (flush : Bool) :
    FannedOut s (fanoutSeg gv gh flush s)
      (fun r c => encSeg (addrAt s.cfg r c) (segDigits s.cfg gv gh r c) flush)
      (fun r c => .seg (segDigits s.cfg gv gh r c)) :=
  fanoutAll_closed (putSegSlices_writesCells hp gv gh flush) hs

/-- Settles O22: the dispatch of `sendCore_dispatched`, its fan-out in closed form. -/
theorem dispatchedSendFansOut : Obligations.DispatchedSendFansOut := by
  unfold Obligations.DispatchedSendFansOut
  intro s f flush now hinv hc hconn hp hv hfp
  rw [← sendDigest_dot hp] at hfp ⊢
  have hcore := sendCore_dispatched hv hfp flush now
  rw [sendFanout_dot hp] at hcore
  exact ⟨fanoutDot (prepGrid s.cfg f) flush s, fanoutDot_closed (hinv.1 hc).shaped hp _ flush,
    exec_send_ok hc hconn hcore, exec_dotcore_ok hc hp hcore⟩

/-- Settles O23: as O22, with the fan-out of the two sub-frames. -/
theorem dispatchedSegmentSendFansOut : Obligations.DispatchedSegmentSendFansOut := by
  unfold Obligations.DispatchedSegmentSendFansOut
  intro s f flush now hinv hc hconn hp hv sub hfp
  rw [← sendDigest_seg hp] at hfp ⊢
  have hcore := sendCore_dispatched hv hfp flush now
  rw [sendFanout_seg hp] at hcore
  exact ⟨fanoutSeg sub.gv sub.gh flush s, fanoutSeg_closed (hinv.1 hc).shaped hp _ _ flush,
    exec_send_ok hc hconn hcore, exec_segcore_ok hc hp hcore⟩

theorem exec_fanout {s : State} {g : Grid} (hc : s.cfgd = true) (hp : s.cfg.ptype ≠ .seg)
    (hs : hasSize g (geomOf s.cfg).devH (geomOf s.cfg).devW = true) (flush : Bool) :
    exec (.fanout g flush) s = .next (ret .nothing (fanoutDot g flush s)) :=
  (if_pos hc).trans ((if_neg hp).trans (if_pos hs))

theorem exec_segfanout {s : State} {gv gh : Grid} (hc : s.cfgd = true) (hp : s.cfg.ptype = .seg)
    (hv : hasSize gv (segGeomOf s.cfg).vh (segGeomOf s.cfg).vw = true)
    (hh : hasSize gh (segGeomOf s.cfg).hh (segGeomOf s.cfg).hw = true) (flush : Bool) :
    exec (.segfanout gv gh flush) s = .next (ret .nothing (fanoutSeg gv gh flush s)) := by
  change execSegfanout gv gh flush s = _
  simp [execSegfanout, hc, hp, hv, hh]

/-- Settles O24: the two rows are the fan-outs in closed form. -/
theorem fanoutWritesServedPanels : Obligations.FanoutWritesServedPanels := by
  unfold Obligations.FanoutWritesServedPanels
  refine ⟨fun s g flush hinv hc hp hs => ?_, fun s gv gh flush hinv hc hp hv hh => ?_⟩
  · exact ⟨_, fanoutDot_closed (hinv.1 hc).shaped hp g flush, exec_fanout hc hp hs flush⟩
  · exact ⟨_, fanoutSeg_closed (hinv.1 hc).shaped hp gv gh flush, exec_segfanout hc hp hv hh flush⟩

/-! ## The length of a payload (R99, R302) -/

/-- Frames of one length, one for each element that is chosen. -/
theorem length_flatMap_ite {α β : Type} (p : α → Bool) {f : α → List β} {n : Nat} (hf : ∀ x, (f x).length = n)
    (xs : List α) : (xs.flatMap fun x => if p x then f x else []).length = (xs.filter p).length * n := by
  induction xs with
  | nil => simp
  | cons x xs ih =>
    rw [List.flatMap_cons, List.length_append, ih]
    by_cases hx : p x = true
    · rw [List.filter_cons_of_pos hx, if_pos hx, hf, List.length_cons, Nat.add_mul, Nat.one_mul, Nat.add_comm]
    · rw [List.filter_cons_of_neg hx, if_neg hx, List.length_nil, Nat.zero_add]

theorem payloadOf_length (c : CfgRegs) {frameOf : Nat → Nat → List Byte} {n : Nat}
    (hf : ∀ r col, (frameOf r col).length = n) (d : Nat) :
    (payloadOf c frameOf d).length =
      ((cells c).filter fun cell => serves (devAddrAt c d) (addrAt c cell.1 cell.2)).length * n :=
  length_flatMap_ite _ (fun _ => hf _ _) _

/-- A slice packs into one byte for each of its columns. -/
theorem packBits_slice_length (g : Grid) (r col : Nat) {th : Nat} (hth : 1 ≤ th) (tw : Nat) :
    (packBits (sliceGrid g r col th tw) .columns .big).length = tw := by
  rw [packBits_big, List.length_map, List.length_range, packCount, sliceGrid, colsOf_tabulate hth]

theorem encSeg_length (c : CfgRegs) (addr : Byte) (gv gh : Grid) (flush : Bool) (r col : Nat) :
    (encSeg addr (segDigits c gv gh r col) flush).length = c.pw * c.ph + 4 := by
  have hrows : ∀ row ∈ segDigits c gv gh r col, row.length = c.pw := fun _ hrow => tabulate_row_length hrow
  rw [encSeg, typeAFrame_length, (flatMap_rows _ hrows).1, segDigits, tabulate_length, Nat.mul_comm]

/-- Settles O25: every frame of a format has the same length. -/
theorem payloadLengthCountsServedCells : Obligations.PayloadLengthCountsServedCells := by
  unfold Obligations.PayloadLengthCountsServedCells
  intro c d flush served
  refine ⟨fun g hph hp => payloadOf_length c (fun r col => ?_) d, fun g hph hp => payloadOf_length c (fun r col => ?_) d,
    fun gv gh => payloadOf_length c (fun r col => encSeg_length c _ gv gh flush r col) d⟩
  · simp only [dotFrame, hp, encA, typeAFrame_length, packBits_slice_length g r col hph]
  · simp only [dotFrame, hp, encB, typeBFrame_length, packBits_slice_length g r col hph]

/-! ## Duplicates (R182) -/

/-- Settles O26: the rows on a core that ends as a duplicate. -/
theorem duplicateFrameIsNotDispatched : Obligations.DuplicateFrameIsNotDispatched := by
  unfold Obligations.DuplicateFrameIsNotDispatched
  refine ⟨fun s f flush now hc hp hv hfp => ?_, fun s f flush now hc hp hv hfp => ?_⟩
  · have hcore := sendCore_duplicate hv (hfp.trans (by rw [sendDigest_dot hp])) flush now
    exact ⟨fun hconn => exec_send_ok hc hconn hcore, exec_dotcore_ok hc hp hcore⟩
  · have hcore := sendCore_duplicate hv (hfp.trans (by rw [sendDigest_seg hp])) flush now
    exact ⟨fun hconn => exec_send_ok hc hconn hcore, exec_segcore_ok hc hp hcore⟩

/-- Settles O27: after the first SEND, LAST_FP is the frame's fingerprint and the record is the same. -/
theorem sameFrameTwiceDispatchesOnce : Obligations.SameFrameTwiceDispatchesOnce := by
  unfold Obligations.SameFrameTwiceDispatchesOnce
  intro s t f flush flush' now now' hc hconn hv hfirst
  obtain ⟨st, u, hcore, hkeeps, hfp⟩ := sendCore_valid_ok hv flush now
  cases hfirst.symm.trans (exec_send_ok hc hconn hcore)
  refine exec_send_ok (t := answer st u) (hkeeps.cfgd.trans hc) (hkeeps.conn.trans hconn) ?_
  refine sendCore_duplicate ?_ ?_ flush' now'
  · rw [answer_cfg, hkeeps.cfg, hv]
  · rw [answer_cfg, answer_lastFp, hkeeps.cfg, hfp]

/-! ## DRAIN (R232) -/

theorem drainEnabled_iff (s : State) : drainEnabled s = true ↔ s.cfgd = true ∧ s.conn = .connected ∧ s.q ≠ [] := by
  simp [drainEnabled, and_assoc]

theorem exec_drain_enabled {s : State} (h : drainEnabled s = true) (now : Nat) :
    exec (.drain now) s = .next (drainOne now s) := if_pos h

theorem exec_drain_disabled {s : State} (h : ¬drainEnabled s = true) (now : Nat) : exec (.drain now) s = .next s :=
  if_neg h

theorem drainOne_error {s : State} {e : QEntry} {rest : List QEntry} {err : Err} (hq : s.q = e :: rest)
    (hv : validateFrame s.cfg e.frame = some err) (now : Nat) :
    drainOne now s = warn (.drainValidation err) { s with q := rest } := by
  have hcore := sendCore_error (s := { s with q := rest }) e.flush now hv
  simp only [drainOne, hq, hcore]

theorem drainOne_ok {s t : State} {e : QEntry} {rest : List QEntry} {st : Status} {now : Nat} (hq : s.q = e :: rest)
    (hcore : sendCore e.frame e.flush now { s with q := rest } = .ok (st, t)) : drainOne now s = t := by
  simp only [drainOne, hq, hcore]

/-- Settles O31: DRAIN and a connected SEND of the head run the same core; only SEND answers on RESULT. -/
theorem drainTakesTheOldestFrame : Obligations.DrainTakesTheOldestFrame := by
  unfold Obligations.DrainTakesTheOldestFrame
  intro s now
  rw [← drainEnabled_iff]
  refine ⟨fun hoff => exec_drain_disabled hoff now, fun e rest hc hconn hq => ?_⟩
  have hon : drainEnabled s = true := (drainEnabled_iff s).mpr ⟨hc, hconn, by simp [hq]⟩
  rw [exec_drain_enabled hon]
  refine ⟨fun err hv => by rw [drainOne_error hq hv]; rfl, fun hv => ?_⟩
  obtain ⟨st, t, hcore, hkeeps, -⟩ := sendCore_valid_ok (s := { s with q := rest }) hv e.flush now
  refine ⟨answer st t, exec_send_ok hc hconn hcore, ?_⟩
  rw [drainOne_ok hq hcore, ← show t.result = s.result from hkeeps.result]
  rfl

/-! ## Geometry (R180, R210) -/

theorem swapsAxes_iff (r : Rotation) : swapsAxes r = true ↔ r = .r90 ∨ r = .r270 := by cases r <;> simp [swapsAxes]

theorem exec_geom {s : State} (hc : s.cfgd = true) : exec .geom s = .next (ret (.geom (geomOf s.cfg)) s) := if_pos hc

theorem exec_seggeom {s : State} (hc : s.cfgd = true) :
    exec .seggeom s = .next (ret (.segGeom (segGeomOf s.cfg)) s) := if_pos hc

/-- Settles O32: the registers with the rotation's swap decided. -/
theorem geometryRegisterValues : Obligations.GeometryRegisterValues := by
  unfold Obligations.GeometryRegisterValues
  intro s hc c pw ph turned
  rw [exec_geom hc, exec_seggeom hc]
  refine ⟨fun hturned => ?_, fun hstraight => ?_⟩
  · have hswap : swapsAxes s.cfg.rot = true := (swapsAxes_iff _).mpr hturned
    simp only [geomOf, segGeomOf, hswap, if_true]
    exact ⟨rfl, rfl⟩
  · have hswap : ¬swapsAxes s.cfg.rot = true := mt (swapsAxes_iff _).mp hstraight
    simp only [geomOf, segGeomOf, if_neg hswap]
    exact ⟨rfl, rfl⟩

/-- WIDTH and HEIGHT are DEVW and DEVH, swapped by a rotation that swaps (R180). -/
theorem geomOf_width_height (c : CfgRegs) :
    (geomOf c).width = (if swapsAxes c.rot then (geomOf c).devH else (geomOf c).devW) ∧
      (geomOf c).height = if swapsAxes c.rot then (geomOf c).devW else (geomOf c).devH := ⟨rfl, rfl⟩

theorem geomOf_dev_pos {c : CfgRegs} (h : CfgLegal c) : 1 ≤ (geomOf c).devW ∧ 1 ≤ (geomOf c).devH := by
  have hpw := h.pw_pos
  have hph := h.ph_pos
  refine ⟨Nat.mul_pos ?_ h.cols_pos, Nat.mul_pos ?_ h.rows_pos⟩
  · split <;> omega
  · split <;> omega

theorem geomOf_pos {c : CfgRegs} (h : CfgLegal c) : 1 ≤ (geomOf c).width ∧ 1 ≤ (geomOf c).height := by
  obtain ⟨hw, hh⟩ := geomOf_dev_pos h
  obtain ⟨ewidth, eheight⟩ := geomOf_width_height c
  rw [ewidth, eheight]
  split
  · exact ⟨hh, hw⟩
  · exact ⟨hw, hh⟩

/-- ORIENT takes a grid of a swapped size to the unswapped one: the two swaps cancel. -/
theorem gridOf_orient {c : CfgRegs} {g : Grid} {h w : Nat}
    (hg : GridOf g (if swapsAxes c.rot then w else h) (if swapsAxes c.rot then h else w)) :
    GridOf (orient c g) h w := by
  have hturned := hg.orient c
  split_ifs at hturned <;> exact hturned

/-! ## PREP and SEGPREP (R183, R211) -/

theorem gridOf_rgbaToBinary (buf : List Byte) {w h : Nat} (hw : 1 ≤ w) (hh : 1 ≤ h) :
    GridOf (rgbaToBinary buf w h) h w := ⟨gridOk_tabulate hh hw _, rowsOf_tabulate _ _ _, colsOf_tabulate hh _ _⟩

theorem gridOf_resizeGrid (g : Grid) {w2 h2 : Nat} (hw : 1 ≤ w2) (hh : 1 ≤ h2) : GridOf (resizeGrid g w2 h2) h2 w2 :=
  ⟨gridOk_tabulate hh hw _, rowsOf_tabulate _ _ _, colsOf_tabulate hh _ _⟩

theorem resize_self (buf : List Byte) (w h : Nat) : resize buf w h w h = buf := if_pos ⟨rfl, rfl⟩

/-- A validated grid has HEIGHT rows of WIDTH pixels. -/
theorem gridOf_of_validated {c : CfgRegs} {rows : Grid} (hl : CfgLegal c) (hv : validateFrame c (.grid rows) = none) :
    GridOf rows (geomOf c).height (geomOf c).width := by
  have hsize : hasSize rows (geomOf c).height (geomOf c).width = true := by
    simpa [validateFrame] using hv
  exact gridOk_of_hasSize hsize (geomOf_pos hl).2 (geomOf_pos hl).1

theorem prepGrid_rgba (c : CfgRegs) (buf : List Byte) :
    prepGrid c (.rgba buf) = orient c (rgbaToBinary buf (geomOf c).width (geomOf c).height) := by
  rw [prepGrid, resize_self]

theorem gridOf_prepGrid {c : CfgRegs} {f : Frame} (hl : CfgLegal c) (hv : validateFrame c f = none) :
    GridOf (prepGrid c f) (geomOf c).devH (geomOf c).devW := by
  cases f with
  | grid rows => exact gridOf_orient (gridOf_of_validated hl hv)
  | rgba buf =>
    rw [prepGrid_rgba]
    exact gridOf_orient (gridOf_rgbaToBinary buf (geomOf_pos hl).1 (geomOf_pos hl).2)
  | other => cases hv

theorem exec_prep {s : State} {f : Frame} (hc : s.cfgd = true) (hv : validateFrame s.cfg f = none) :
    exec (.prep f) s = .next (ret (.grid (prepGrid s.cfg f)) s) := (if_pos hc).trans (if_pos hv)

/-- Settles O34: the grid PREP orients has the effective size, so the oriented one has the device's. -/
theorem prepGivesTheDeviceGrid : Obligations.PrepGivesTheDeviceGrid := by
  unfold Obligations.PrepGivesTheDeviceGrid
  intro s f hc hl hv
  refine ⟨prepGrid s.cfg f, (gridOf_prepGrid hl hv).hasSize, exec_prep hc hv, ?_, ?_⟩
  · rintro rows rfl
    rfl
  · rintro bytes rfl
    exact prepGrid_rgba s.cfg bytes

/-- The aggregate sub-frame sizes in effective orientation are at least 1 (R210). -/
theorem segGeomOf_pos {c : CfgRegs} (h : CfgLegal c) :
    (1 ≤ (segGeomOf c).vwe ∧ 1 ≤ (segGeomOf c).vhe) ∧ 1 ≤ (segGeomOf c).hwe ∧ 1 ≤ (segGeomOf c).hhe := by
  have hvw : 1 ≤ 2 * c.pw * c.cols := Nat.mul_pos (Nat.mul_pos (by decide) h.pw_pos) h.cols_pos
  have hvh : 1 ≤ 2 * c.ph * c.rows := Nat.mul_pos (Nat.mul_pos (by decide) h.ph_pos) h.rows_pos
  have hhw : 1 ≤ c.pw * c.cols := Nat.mul_pos h.pw_pos h.cols_pos
  have hhh : 1 ≤ 3 * c.ph * c.rows := Nat.mul_pos (Nat.mul_pos (by decide) h.ph_pos) h.rows_pos
  unfold segGeomOf
  cases swapsAxes c.rot
  · exact ⟨⟨hvw, hvh⟩, hhw, hhh⟩
  · exact ⟨⟨hvh, hvw⟩, hhh, hhw⟩

theorem gridOf_segPrep {c : CfgRegs} {f : Frame} (hl : CfgLegal c) (hv : validateFrame c f = none) :
    GridOf (segPrep c f).gv (segGeomOf c).vh (segGeomOf c).vw ∧
      GridOf (segPrep c f).gh (segGeomOf c).hh (segGeomOf c).hw := by
  obtain ⟨⟨hvw, hvh⟩, hhw, hhh⟩ := segGeomOf_pos hl
  cases f with
  | grid rows => exact ⟨gridOf_orient (gridOf_resizeGrid rows hvw hvh), gridOf_orient (gridOf_resizeGrid rows hhw hhh)⟩
  | rgba buf =>
    exact ⟨gridOf_orient (gridOf_rgbaToBinary _ hvw hvh), gridOf_orient (gridOf_rgbaToBinary _ hhw hhh)⟩
  | other => cases hv

theorem exec_segprep {s : State} {f : Frame} (hc : s.cfgd = true) (hv : validateFrame s.cfg f = none) :
    exec (.segprep f) s = .next (ret (.subFrames (segPrep s.cfg f)) s) := (if_pos hc).trans (if_pos hv)

/-- Settles O35: each oriented sub-frame has its aggregate device size, by the same argument as PREP's grid. -/
theorem segPrepGivesTheSubFrames : Obligations.SegPrepGivesTheSubFrames := by
  unfold Obligations.SegPrepGivesTheSubFrames
  intro s f hc hl hv w h sg
  obtain ⟨hgv, hgh⟩ := gridOf_segPrep hl hv
  refine ⟨segPrep s.cfg f, exec_segprep hc hv, fun _ => ⟨hgv.hasSize, hgh.hasSize⟩, ?_, ?_⟩
  · rintro g rfl
    exact ⟨rfl, rfl, rfl, rfl⟩
  · rintro b rfl
    exact ⟨rfl, rfl, rfl, rfl⟩

end Sys2Proof.Machine
end

section
/-! The step (O4 to O6, O8 to O11, O13 to O16): everything one step can do to the block, as one inductive relation; what each
step keeps is then a case analysis over that relation. -/

namespace Sys2Proof.Machine

/-! ## The step by its schedule (R232, R236, R266) -/

/-- Settles O4: `present` is the schedule's and TIME's update. -/
theorem stepRunsDecodedInstruction : Obligations.StepRunsDecodedInstruction := by
  unfold Obligations.StepRunsDecodedInstruction
  intro s c rest i hs hd
  exact step_of_decode hs hd

theorem step_drains {s : State} (hs : s.schedule = []) (h : drainEnabled s = true) :
    step s = exec (.drain (selfDrainTime s)) (selfDrainState s) := by
  simp [step, hs, h]

theorem step_idles {s : State} (hs : s.schedule = []) (h : ¬drainEnabled s = true) : step s = .next s := by
  simp [step, hs, h]

/-- Settles O5: the self-started DRAIN's time is TIME after a free delay. -/
theorem stepWithEmptySchedule : Obligations.StepWithEmptySchedule := by
  unfold Obligations.StepWithEmptySchedule
  intro s hs
  rw [← drainEnabled_iff]
  exact ⟨fun hon => ⟨selfDrainTime s, Nat.le_add_right _ _, step_drains hs hon⟩, fun hoff => step_idles hs hoff⟩

/-- A DRAIN takes the head off Q and keeps what a dispatch keeps. -/
theorem drainOne_keeps {s : State} {e : QEntry} {rest : List QEntry} (hq : s.q = e :: rest) (now : Nat) :
    DispatchKeeps { s with q := rest } (drainOne now s) := by
  cases hv : validateFrame s.cfg e.frame with
  | some err =>
    rw [drainOne_error hq hv]
    exact ⟨rfl, rfl, rfl, rfl, rfl, rfl⟩
  | none =>
    obtain ⟨st, t, hcore, hkeeps, -⟩ := sendCore_valid_ok (s := { s with q := rest }) hv e.flush now
    rwa [drainOne_ok hq hcore]

/-- A run goes on from the state its first step answers. -/
theorem run_succ {M : Host.Core} {s u : M.State} (h : M.step s = .next u) (n : Nat) : M.run (n + 1) s = M.run n u := by
  simp only [Host.Core.run, h]

/-- A connected block with nothing scheduled takes one entry off Q at each step. -/
theorem run_drains (n : Nat) : ∀ s : State, s.cfgd = true → s.conn = .connected → s.schedule = [] → s.q.length = n →
    ∃ t : State, Host.Core.run core n s = .next t ∧ t.q = [] ∧ t.schedule = [] ∧ t.conn = .connected ∧ t.cfg = s.cfg := by
  induction n with
  | zero => exact fun s _ hconn hs hlen => ⟨s, rfl, List.length_eq_zero_iff.mp hlen, hs, hconn, rfl⟩
  | succ n ih =>
    intro s hc hconn hs hlen
    obtain ⟨e, rest, hq⟩ := List.exists_cons_of_length_eq_add_one hlen
    have hon : drainEnabled s = true := (drainEnabled_iff s).mpr ⟨hc, hconn, by simp [hq]⟩
    have hkeeps := drainOne_keeps (s := selfDrainState s) hq (selfDrainTime s)
    have hstep : core.step s = .next (drainOne (selfDrainTime s) (selfDrainState s)) :=
      (step_drains hs hon).trans (exec_drain_enabled (s := selfDrainState s) hon _)
    have hrest : rest.length = n := by simpa [hq] using hlen
    obtain ⟨t, hrun, htq, hts, htconn, htcfg⟩ := ih _ (hkeeps.cfgd.trans hc) (hkeeps.conn.trans hconn)
      (hkeeps.schedule.trans hs) ((congrArg List.length hkeeps.q).trans hrest)
    exact ⟨t, (run_succ hstep n).trans hrun, htq, hts, htconn, htcfg.trans hkeeps.cfg⟩

/-- Settles O6, by induction on the length of Q. -/
theorem emptyScheduleDrainsTheQueue : Obligations.EmptyScheduleDrainsTheQueue := by
  unfold Obligations.EmptyScheduleDrainsTheQueue
  intro s hc hconn hs
  obtain ⟨t, hrun, hq, hts, htconn, hcfg⟩ := run_drains s.q.length s hc hconn hs rfl
  have hoff : ¬drainEnabled t = true := fun hon => ((drainEnabled_iff t).mp hon).2.2 hq
  exact ⟨t, hrun, hq, htconn, hcfg, step_idles hts hoff⟩

/-! ## RESET (R32, R290) -/

/-- Settles O8: RESET's state field by field. -/
theorem resetReturnsToUnconfigured : Obligations.ResetReturnsToUnconfigured := by
  unfold Obligations.ResetReturnsToUnconfigured
  intro s
  exact ⟨resetState s, rfl, rfl, rfl, rfl, rfl, rfl, rfl, rfl, rfl, rfl, rfl, rfl, rfl, rfl, rfl, rfl, rfl, rfl, rfl, rfl⟩

theorem reset_unconfigured : Unconfigured State.reset := by constructor <;> rfl

/-- Settles O9: the reset state is unconfigured, with every field at its reset value. -/
theorem resetStateMeetsInvariant : Obligations.ResetStateMeetsInvariant := by
  unfold Obligations.ResetStateMeetsInvariant
  exact ⟨nofun, fun _ => reset_unconfigured⟩

/-! ## What a step can do -/

/-- `t` is `s` but for the RESULT port and the model's own fields (logs 1, 5, 6, 18), which no statement about the block
reads. -/
def SameBlock (s t : State) : Prop :=
  ∃ result value schedule time freeCtr,
    t = { s with result := result, value := value, schedule := schedule, time := time, freeCtr := freeCtr }

theorem sameBlock_refl (s : State) : SameBlock s s := ⟨_, _, _, _, _, rfl⟩

theorem sameBlock_raise (e : Err) (s : State) : SameBlock s (raise e s) := ⟨_, _, _, _, _, rfl⟩

theorem sameBlock_answer (st : Status) (s : State) : SameBlock s (answer st s) := ⟨_, _, _, _, _, rfl⟩

theorem sameBlock_ret (v : Value) (s : State) : SameBlock s (ret v s) := ⟨_, _, _, _, _, rfl⟩

theorem sameBlock_present (rest : List Code) (now : Nat) (s : State) : SameBlock s (present rest now s) :=
  ⟨_, _, _, _, _, rfl⟩

theorem sameBlock_selfDrainState (s : State) : SameBlock s (selfDrainState s) := ⟨_, _, _, _, _, rfl⟩

/-- What the core of a send can do: nothing (a duplicate), or one write to each device in list order, the registers and
RECORD (R185 to R188, R214). -/
inductive CoreEffect (s : State) : State → Prop
  | silent : CoreEffect s s
  | dispatched (fp : Digest) (now : Nat) (new : List Write) (panels : List (List Panel))
      (hdev : new.map Write.dev = List.range s.cfg.ndev) (hshape : Shaped s → Shaped { s with panels := panels }) :
      CoreEffect s
        { s with
          out := s.out ++ new, panels := panels, lastFp := some fp, lastTs := some now,
          rateWarned := s.rateWarned || tooSoon s now,
          warnLog := s.warnLog ++ if tooSoon s now && !s.rateWarned then [.rate (now - s.lastTs.getD 0)] else [] }

theorem CoreEffect.keeps {s t : State} (h : CoreEffect s t) : DispatchKeeps s t := by
  cases h <;> exact ⟨rfl, rfl, rfl, rfl, rfl, rfl⟩

/-- What one step but RESET can do to the block, each way under the conditions in which its rule takes it. -/
inductive Effect (s : State) : State → Prop
  /-- Nothing: an idle step, an error, a frame on the bench port, an event that is ignored. -/
  | idle : Effect s s
  /-- CFG (R225). -/
  | constructed (r : CfgRecord) (c : CfgRegs) (hc : s.cfgd = false) (hcheck : checkCfg r = .ok c) :
      Effect s (construct c s)
  /-- SEND before the connection, with room in Q (R231). -/
  | queued (e : QEntry) (hc : s.cfgd = true) (hconn : s.conn ≠ .connected) (hroom : s.q.length < s.cfg.maxq) :
      Effect s { s with q := s.q ++ [e] }
  /-- SEND before the connection, Q full (R231). -/
  | dropped (hc : s.cfgd = true) :
      Effect s
        { s with ovfWarned := true, warnLog := s.warnLog ++ if s.ovfWarned then [] else [.queueFull] }
  /-- SEND (R187). -/
  | sent {t : State} (hc : s.cfgd = true) (hconn : s.conn = .connected) (hcore : CoreEffect s t) : Effect s t
  /-- DRAIN of a valid frame (R232). -/
  | drained {t : State} (e : QEntry) (rest : List QEntry) (hc : s.cfgd = true) (hconn : s.conn = .connected)
      (hq : s.q = e :: rest) (hcore : CoreEffect { s with q := rest } t) : Effect s t
  /-- DRAIN of a frame that VALIDATE rejects (R232). -/
  | rejected (e : QEntry) (rest : List QEntry) (err : Err) (hc : s.cfgd = true) (hconn : s.conn = .connected)
      (hq : s.q = e :: rest) : Effect s { s with q := rest, warnLog := s.warnLog ++ [.drainValidation err] }
  /-- DEV_OPEN_DONE with the join (R229, R230). -/
  | opened (d : Nat) (err : Bool) (hc : s.cfgd = true) (hd : d < s.cfg.ndev) (hnew : doneAt s d = false) :
      Effect s
        { s with
          devDone := s.devDone.set d true, devOpen := s.devOpen.set d (!err),
          warnLog := s.warnLog ++ if err then [.transportOpen d] else [],
          conn := if allDone { s with devDone := s.devDone.set d true } then .connected else s.conn }
  /-- DEV_WRITE_DONE with an error (R233). -/
  | writeFailed (d : Nat) (hc : s.cfgd = true) : Effect s { s with warnLog := s.warnLog ++ [.transportWrite d] }

theorem sendFanout_shaped (f : Frame) (flush : Bool) {s : State} (hs : Shaped s) : Shaped (sendFanout f flush s) := by
  by_cases hp : s.cfg.ptype = .seg
  · rw [sendFanout_seg hp]
    exact (fanoutDevices_closed (putSegSlices_writesCells hp _ _ flush) _ s rfl hs).2.1
  · rw [sendFanout_dot hp]
    exact (fanoutDevices_closed (putSlice_writesCells hp _ flush) _ s rfl hs).2.1

theorem sendCore_effect {f : Frame} {flush : Bool} {now : Nat} {s t : State} {st : Status}
    (h : sendCore f flush now s = .ok (st, t)) : CoreEffect s t := by
  cases hv : validateFrame s.cfg f with
  | some e => cases h.symm.trans (sendCore_error flush now hv)
  | none =>
    by_cases hfp : s.lastFp = some (sendDigest s.cfg f)
    · cases h.symm.trans (sendCore_duplicate hv hfp flush now)
      exact .silent
    · cases h.symm.trans (sendCore_dispatched hv hfp flush now)
      have hframe := sendFanout_frame f flush s
      have hshape : Shaped s → Shaped { s with panels := (sendFanout f flush s).panels } := fun hs => by
        have hshaped := sendFanout_shaped f flush hs
        rw [hframe.rest] at hshaped
        exact hshaped
      obtain ⟨new, hout, hdev⟩ := hframe.writes
      rw [recordSend_spec, hframe.rest, hout]
      exact .dispatched _ now new _ hdev hshape

theorem execCfg_effect {r : CfgRecord} {s t : State} (h : exec (.cfg r) s = .next t) :
    ∃ u, Effect s u ∧ SameBlock u t := by
  cases hc : s.cfgd with
  | true =>
    cases h.symm.trans (exec_cfg_alreadyConfigured hc r)
    exact ⟨s, .idle, sameBlock_raise _ s⟩
  | false =>
    cases hcheck : checkCfg r with
    | error e =>
      cases h.symm.trans (exec_cfg_error hc hcheck)
      exact ⟨s, .idle, sameBlock_raise _ s⟩
    | ok c =>
      cases h.symm.trans (exec_cfg_ok hc hcheck)
      exact ⟨construct c s, .constructed r c hc hcheck, sameBlock_answer _ _⟩

theorem enqueueFrame_effect (f : Frame) (flush : Bool) {s : State} (hc : s.cfgd = true) (hconn : s.conn ≠ .connected) :
    Effect s (enqueueFrame f flush s).2 := by
  rcases enqueueFrame_spec f flush s with ⟨hroom, henq⟩ | ⟨-, henq⟩
  · rw [henq]
    exact .queued _ hc hconn hroom
  · rw [henq]
    exact .dropped hc

theorem execSend_effect {f : Frame} {flush : Bool} {now : Nat} {s t : State} (h : exec (.send f flush now) s = .next t) :
    ∃ u, Effect s u ∧ SameBlock u t := by
  cases hc : s.cfgd with
  | false =>
    cases h.symm.trans (exec_send_notConfigured hc f flush now)
    exact ⟨s, .idle, sameBlock_raise _ s⟩
  | true =>
    by_cases hconn : s.conn = .connected
    · cases hcore : sendCore f flush now s with
      | error e =>
        cases h.symm.trans (exec_send_error hc hconn hcore)
        exact ⟨s, .idle, sameBlock_raise _ s⟩
      | ok res =>
        cases h.symm.trans (exec_send_ok hc hconn hcore)
        exact ⟨res.2, .sent hc hconn (sendCore_effect hcore), sameBlock_answer _ _⟩
    · cases h.symm.trans (exec_send_queues hc hconn f flush now)
      exact ⟨_, enqueueFrame_effect f flush hc hconn, sameBlock_answer _ _⟩

theorem execDrain_effect {now : Nat} {s t : State} (h : exec (.drain now) s = .next t) :
    ∃ u, Effect s u ∧ SameBlock u t := by
  by_cases hon : drainEnabled s = true
  · cases h.symm.trans (exec_drain_enabled hon now)
    refine ⟨_, ?_, sameBlock_refl _⟩
    obtain ⟨hc, hconn, hne⟩ := (drainEnabled_iff s).mp hon
    obtain ⟨e, rest, hq⟩ := List.exists_cons_of_ne_nil hne
    cases hv : validateFrame s.cfg e.frame with
    | some err =>
      rw [drainOne_error hq hv]
      exact .rejected e rest err hc hconn hq
    | none =>
      obtain ⟨st, u, hcore, -, -⟩ := sendCore_valid_ok (s := { s with q := rest }) hv e.flush now
      rw [drainOne_ok hq hcore]
      exact .drained e rest hc hconn hq (sendCore_effect hcore)
  · cases h.symm.trans (exec_drain_disabled hon now)
    exact ⟨s, .idle, sameBlock_refl s⟩

theorem openDone_effect (d : Nat) (err : Bool) (s : State) : Effect s (openDone d err s) := by
  rcases openDone_cases d err s with ⟨-, h⟩ | ⟨hc, hd, hnew, h⟩
  · rw [h]
    exact .idle
  · rw [h]
    exact .opened d err hc hd hnew

theorem writeDone_effect (d : Nat) (err : Bool) (s : State) : Effect s (writeDone d err s) := by
  by_cases h : s.cfgd = true ∧ d < s.cfg.ndev ∧ err = true
  · rw [writeDone_spec, if_pos h]
    exact .writeFailed d h.1
  · rw [writeDone_ignored h]
    exact .idle

/-- What an operation that a record spells can do to the block. -/
theorem exec_effect {op : Byte} {fields : List Field} {i : Instr} {s t : State} (hreads : RecordReads op fields i)
    (h : exec i s = .next t) :
    (op = 0x00 ∧ fields = [] ∧ t = resetState s) ∨ ∃ u, Effect s u ∧ SameBlock u t := by
  cases hreads with
  | reset =>
    cases h
    exact .inl ⟨rfl, rfl, rfl⟩
  | cfg r => exact .inr (execCfg_effect h)
  | send => exact .inr (execSend_effect h)
  | sendDefault => exact .inr (execSend_effect h)
  | devOpenDone d err =>
    cases h
    exact .inr ⟨_, openDone_effect d err s, sameBlock_refl _⟩
  | devWriteDone d err =>
    cases h
    exact .inr ⟨_, writeDone_effect d err s, sameBlock_refl _⟩
  | drain => exact .inr (execDrain_effect h)

/-- What a step does: RESET, or one effect between two changes of the model's own fields. -/
theorem step_effect {s t : State} (h : step s = .next t) :
    (resetNext s ∧ SameBlock State.reset t) ∨ ∃ a u, SameBlock s a ∧ Effect a u ∧ SameBlock u t := by
  rcases step_operation h with rfl | hdrain | ⟨op, fields, rest, i, hs, hreads, hexec⟩ | ⟨rest, now, bytes, rfl⟩ |
    ⟨rest, op, rfl⟩
  · exact .inr ⟨t, t, sameBlock_refl t, .idle, sameBlock_refl t⟩
  · exact .inr ⟨_, (execDrain_effect hdrain).imp fun u hu => ⟨sameBlock_selfDrainState s, hu⟩⟩
  · rcases exec_effect hreads hexec with ⟨rfl, rfl, rfl⟩ | ⟨u, hu, hut⟩
    · exact .inl ⟨⟨rest, hs⟩, ⟨_, _, _, _, _, rfl⟩⟩
    · exact .inr ⟨_, u, sameBlock_present _ _ s, hu, hut⟩
  · exact .inr ⟨_, _, sameBlock_present rest now s, .idle, sameBlock_ret _ _⟩
  · exact .inr ⟨_, _, sameBlock_present rest 0 s, .idle, sameBlock_raise _ _⟩

/-! ## The invariant (R21 to R31) -/

theorem Configured.of_sameBlock {s t : State} (k : Configured s) (h : SameBlock s t) : Configured t := by
  obtain ⟨_, _, _, _, _, rfl⟩ := h
  exact { k with }

theorem Unconfigured.of_sameBlock {s t : State} (k : Unconfigured s) (h : SameBlock s t) : Unconfigured t := by
  obtain ⟨_, _, _, _, _, rfl⟩ := h
  exact { k with }

theorem SameBlock.cfgd {s t : State} (h : SameBlock s t) : t.cfgd = s.cfgd := by
  obtain ⟨_, _, _, _, _, rfl⟩ := h
  rfl

theorem Inv.of_sameBlock {s t : State} (hinv : Inv s) (h : SameBlock s t) : Inv t :=
  ⟨fun hc => (hinv.1 (h.cfgd ▸ hc)).of_sameBlock h, fun hc => (hinv.2 (h.cfgd ▸ hc)).of_sameBlock h⟩

theorem inv_of_configured {s : State} (hc : s.cfgd = true) (k : Configured s) : Inv s :=
  ⟨fun _ => k, fun hn => absurd hc (by simp [hn])⟩

/-- Warnings other than the two that a latch gates. -/
def Ungated (ws : List Warning) : Prop := ws.count .queueFull = 0 ∧ ws.countP isRate = 0

theorem Configured.keeps_warned {s : State} (k : Configured s) {ws : List Warning} (hws : Ungated ws) :
    Configured { s with warnLog := s.warnLog ++ ws } := by
  obtain ⟨hfull, hrate⟩ := hws
  refine { k with overflow_once := ?_, rate_once := ?_ }
  · rw [List.count_append, hfull]
    exact k.overflow_once
  · rw [List.countP_append, hrate]
    exact k.rate_once

/-- The head leaves Q. -/
theorem Configured.keeps_dequeued {s : State} (k : Configured s) {e : QEntry} {rest : List QEntry} (hq : s.q = e :: rest) :
    Configured { s with q := rest } := by
  refine { k with queue_bound := ?_ }
  have hbound := k.queue_bound
  rw [hq, List.length_cons] at hbound
  exact Nat.le_of_succ_le hbound

theorem Configured.keeps_queued {s : State} (k : Configured s) (e : QEntry) (hroom : s.q.length < s.cfg.maxq) :
    Configured { s with q := s.q ++ [e] } := by
  refine { k with queue_bound := ?_ }
  rw [List.length_append]
  exact hroom

theorem Configured.keeps_dropped {s : State} (k : Configured s) :
    Configured
      { s with ovfWarned := true, warnLog := s.warnLog ++ if s.ovfWarned then [] else [.queueFull] } := by
  have hfull := k.overflow_once
  have hrate := k.rate_once
  refine { k with overflow_once := ?_, rate_once := ?_ }
  · cases ho : s.ovfWarned <;> simp_all
  · cases ho : s.ovfWarned <;> simp_all [isRate]

/-- A dispatch on a connected block: the writes go to its devices, and W_RATE is reported with its latch. -/
theorem Configured.keeps_core {s t : State} (k : Configured s) (hconn : s.conn = .connected) (h : CoreEffect s t) :
    Configured t := by
  cases h with
  | silent => exact k
  | dispatched fp now new panels hdev hshape =>
    obtain ⟨hrows, hcols⟩ := hshape k.shaped
    refine { k with
      panel_rows := hrows, panel_cols := hcols, recorded := rfl, unsent := fun hn => absurd hconn hn,
      write_dev := fun w hw => ?_, overflow_once := ?_, rate_once := ?_ }
    · rcases List.mem_append.mp hw with hold | hnew
      · exact k.write_dev w hold
      · exact List.mem_range.mp (hdev ▸ List.mem_map_of_mem hnew)
    · have hfull := k.overflow_once
      cases tooSoon s now <;> cases s.rateWarned <;> simpa using hfull
    · have hrate := k.rate_once
      cases tooSoon s now <;> cases hr : s.rateWarned <;> simp_all [isRate]

/-- DEV_OPEN_DONE's bits and the join; before it the block was not connected, because device `d` was not done. -/
theorem Configured.keeps_openDone {s : State} (k : Configured s) {d : Nat} (err : Bool) (hd : d < s.cfg.ndev)
    (hnew : doneAt s d = false) :
    Configured
      { s with
        devDone := s.devDone.set d true, devOpen := s.devOpen.set d (!err),
        conn := if allDone { s with devDone := s.devDone.set d true } then .connected else s.conn } := by
  have hconn : s.conn ≠ .connected := fun hconn => by
    have hdone := (allDone_iff s).mp (k.joined.mp hconn) d hd
    simp [hnew] at hdone
  refine { k with
    opened := ?_, done_len := ?_, open_len := ?_, open_done := fun e he => ?_, joined := ?_,
    unsent := fun _ => k.unsent hconn }
  · dsimp only
    split
    · nofun
    · exact k.opened
  · exact (List.length_set ..).trans k.done_len
  · exact (List.length_set ..).trans k.open_len
  · have hdlen : d < s.devDone.length := k.done_len ▸ hd
    by_cases hed : d = e
    · subst hed
      exact List.getElem?_set_self hdlen
    · rw [List.getElem?_set_ne hed] at he ⊢
      exact k.open_done e he
  · change (if allDone { s with devDone := s.devDone.set d true } then Conn.connected else s.conn) = .connected ↔
      allDone { s with devDone := s.devDone.set d true } = true
    split
    next hall => exact iff_of_true rfl hall
    next hall => exact iff_of_false hconn hall

/-- CFG on an unconfigured block: nothing is sent, queued, done or warned of yet. -/
theorem construct_configured {s : State} (k : Unconfigured s) {c : CfgRegs} (hl : CfgLegal c) :
    Configured (construct c s) := by
  rw [construct_spec]
  have hnotDone : ∀ d, ¬(List.replicate c.ndev false)[d]? = some true := fun d hd => by
    rw [List.getElem?_replicate] at hd
    split at hd <;> cases hd
  exact {
    legal := hl
    opened := nofun
    panel_rows := tabulate_length _ _ _
    panel_cols := freshPanels_shaped c s.freeCtr
    done_len := List.length_replicate
    open_len := List.length_replicate
    open_done := fun d hd => absurd hd (hnotDone d)
    joined := by
      refine iff_of_false nofun fun hall => ?_
      have hzero := (allDone_iff _).mp hall 0 hl.ndev_pos
      simp [doneAt, show 0 < c.ndev from hl.ndev_pos] at hzero
    queue_bound := Nat.zero_le _
    recorded := rfl
    unsent := fun _ => ⟨rfl, k.out⟩
    write_dev := fun w hw => by
      rw [k.out] at hw
      cases hw
    asked := by rw [k.openReq, List.nil_append]
    overflow_once := by rw [k.warnLog]; rfl
    rate_once := by rw [k.warnLog]; rfl }

theorem Effect.keeps_inv {s t : State} (hinv : Inv s) (h : Effect s t) : Inv t := by
  cases h with
  | idle => exact hinv
  | constructed r c hc hcheck =>
    refine inv_of_configured ?_ (construct_configured (hinv.2 hc) (legal_of_checkCfg hcheck))
    rw [construct_spec]
  | queued e hc hconn hroom => exact inv_of_configured hc ((hinv.1 hc).keeps_queued e hroom)
  | dropped hc => exact inv_of_configured hc (hinv.1 hc).keeps_dropped
  | sent hc hconn hcore => exact inv_of_configured (hcore.keeps.cfgd.trans hc) ((hinv.1 hc).keeps_core hconn hcore)
  | drained e rest hc hconn hq hcore =>
    exact inv_of_configured (hcore.keeps.cfgd.trans hc) (((hinv.1 hc).keeps_dequeued hq).keeps_core hconn hcore)
  | rejected e rest err hc hconn hq =>
    exact inv_of_configured hc (((hinv.1 hc).keeps_dequeued hq).keeps_warned ⟨rfl, rfl⟩)
  | opened d err hc hd hnew =>
    refine inv_of_configured hc (((hinv.1 hc).keeps_openDone err hd hnew).keeps_warned ?_)
    cases err <;> exact ⟨rfl, rfl⟩
  | writeFailed d hc => exact inv_of_configured hc ((hinv.1 hc).keeps_warned ⟨rfl, rfl⟩)

/-- Settles O10: the model's own fields are not in the invariant, and every effect keeps it. -/
theorem stepKeepsInvariant : Obligations.StepKeepsInvariant := by
  unfold Obligations.StepKeepsInvariant
  intro s t hinv h
  rcases step_effect h with ⟨-, hreset⟩ | ⟨a, u, hsa, heffect, hut⟩
  · exact Inv.of_sameBlock resetStateMeetsInvariant hreset
  · exact (heffect.keeps_inv (hinv.of_sameBlock hsa)).of_sameBlock hut

/-! ## What else every step keeps -/

/-- Only CFG writes the record, and only of an unconfigured block (R21). -/
theorem Effect.cfg_eq {s t : State} (h : Effect s t) (hc : s.cfgd = true) : t.cfg = s.cfg := by
  cases h with
  | constructed r c hn => exact absurd hc (by simp [hn])
  | sent _ _ hcore => exact hcore.keeps.cfg
  | drained _ _ _ _ _ hcore => exact hcore.keeps.cfg
  | _ => rfl

/-- Settles O11: RESET leaves the block unconfigured, and no other effect on a configured block writes the record. -/
theorem configurationNeverRewritten : Obligations.ConfigurationNeverRewritten := by
  unfold Obligations.ConfigurationNeverRewritten
  intro s t h hs ht
  rcases step_effect h with ⟨-, ⟨_, _, _, _, _, rfl⟩⟩ | ⟨a, u, ⟨_, _, _, _, _, rfl⟩, heffect, ⟨_, _, _, _, _, rfl⟩⟩
  · cases ht
  · exact heffect.cfg_eq hs

theorem CoreEffect.latches {s t : State} (h : CoreEffect s t) :
    t.ovfWarned = s.ovfWarned ∧ (s.rateWarned = true → t.rateWarned = true) := by
  cases h with
  | silent => exact ⟨rfl, id⟩
  | dispatched => exact ⟨rfl, fun hr => by simp [hr]⟩

/-- The latches are cleared by CFG alone, on a block where they are not set (R26, R259). -/
theorem Effect.latches {s t : State} (hinv : Inv s) (h : Effect s t) :
    (s.ovfWarned = true → t.ovfWarned = true) ∧ (s.rateWarned = true → t.rateWarned = true) := by
  cases h with
  | constructed r c hc =>
    have k := hinv.2 hc
    exact ⟨fun ho => absurd ho (by simp [k.ovfWarned]), fun hr => absurd hr (by simp [k.rateWarned])⟩
  | dropped => exact ⟨fun _ => rfl, id⟩
  | sent _ _ hcore => exact ⟨fun ho => hcore.latches.1.trans ho, hcore.latches.2⟩
  | drained _ _ _ _ _ hcore => exact ⟨fun ho => hcore.latches.1.trans ho, hcore.latches.2⟩
  | _ => exact ⟨id, id⟩

/-- Settles O13: no effect but RESET clears a latch that is set. -/
theorem latchesClearedOnlyByReset : Obligations.LatchesClearedOnlyByReset := by
  unfold Obligations.LatchesClearedOnlyByReset
  intro s t hinv h hnot
  rcases step_effect h with ⟨hreset, -⟩ | ⟨a, u, hsa, heffect, ⟨_, _, _, _, _, rfl⟩⟩
  · exact absurd hreset hnot
  · have hlatches := heffect.latches (hinv.of_sameBlock hsa)
    obtain ⟨_, _, _, _, _, rfl⟩ := hsa
    exact hlatches

/-- Warnings appended, at most one of them. -/
theorem append_atMostOne {α : Type} (l : List α) {ws : List α} (h : ws.length ≤ 1) :
    l ++ ws = l ∨ ∃ w, l ++ ws = l ++ [w] := by
  match ws with
  | [] => exact .inl (List.append_nil l)
  | [w] => exact .inr ⟨w, rfl⟩
  | _ :: _ :: _ => simp at h

theorem CoreEffect.warnLog {s t : State} (h : CoreEffect s t) :
    t.warnLog = s.warnLog ∨ ∃ w, t.warnLog = s.warnLog ++ [w] := by
  cases h with
  | silent => exact .inl rfl
  | dispatched => exact append_atMostOne _ (by split <;> simp)

/-- Every effect reports at most one warning (R257 (d)). -/
theorem Effect.warnLog {s t : State} (h : Effect s t) :
    t.warnLog = s.warnLog ∨ ∃ w, t.warnLog = s.warnLog ++ [w] := by
  cases h with
  | constructed => exact .inl (by rw [construct_spec])
  | dropped => exact append_atMostOne _ (by split <;> simp)
  | sent _ _ hcore => exact hcore.warnLog
  | drained _ _ _ _ _ hcore => exact hcore.warnLog
  | rejected => exact append_atMostOne _ (by simp)
  | opened => exact append_atMostOne _ (by split <;> simp)
  | writeFailed => exact append_atMostOne _ (by simp)
  | _ => exact .inl rfl

theorem CoreEffect.openReq {s t : State} (h : CoreEffect s t) : t.openReq = s.openReq := by
  cases h <;> rfl

/-- Only CFG asks devices to open (R228). -/
theorem Effect.openReq {s t : State} (h : Effect s t) : s.openReq <+: t.openReq := by
  cases h with
  | constructed =>
    rw [construct_spec]
    exact ⟨_, rfl⟩
  | sent _ _ hcore => rw [hcore.openReq]
  | drained _ _ _ _ _ hcore => rw [hcore.openReq]
  | _ => exact ⟨[], List.append_nil _⟩

theorem CoreEffect.out {s t : State} (h : CoreEffect s t) :
    ∃ new : List Write, t.out = s.out ++ new ∧ (new = [] ∨ new.map Write.dev = List.range s.cfg.ndev) := by
  cases h with
  | silent => exact ⟨[], by simp, .inl rfl⟩
  | dispatched _ _ new _ hdev => exact ⟨new, rfl, .inr hdev⟩

/-- Only the core of a send writes, and then once to each device in list order (R65, R68). -/
theorem Effect.out {s t : State} (h : Effect s t) :
    ∃ new : List Write, t.out = s.out ++ new ∧ (new = [] ∨ new.map Write.dev = List.range s.cfg.ndev) := by
  cases h with
  | constructed => exact ⟨[], by rw [construct_spec, List.append_nil], .inl rfl⟩
  | sent _ _ hcore => exact hcore.out
  | drained _ _ _ _ _ hcore => exact hcore.out
  | _ => exact ⟨[], (List.append_nil _).symm, .inl rfl⟩

/-- Settles O14: what each effect appends to the three traces. -/
theorem tracesOnlyGrow : Obligations.TracesOnlyGrow := by
  unfold Obligations.TracesOnlyGrow
  intro s t h hnot
  rcases step_effect h with ⟨hreset, -⟩ | ⟨a, u, ⟨_, _, _, _, _, rfl⟩, heffect, ⟨_, _, _, _, _, rfl⟩⟩
  · exact absurd hreset hnot
  · obtain ⟨new, hout, -⟩ := heffect.out
    exact ⟨⟨new, hout.symm⟩, heffect.openReq, heffect.warnLog⟩

/-- Settles O16: what each effect appends to OUT. -/
theorem oneWritePerDeviceInOrder : Obligations.OneWritePerDeviceInOrder := by
  unfold Obligations.OneWritePerDeviceInOrder
  intro s t h hnot
  rcases step_effect h with ⟨hreset, -⟩ | ⟨a, u, ⟨_, _, _, _, _, rfl⟩, heffect, ⟨_, _, _, _, _, rfl⟩⟩
  · exact absurd hreset hnot
  · exact heffect.out

/-- SEND appends before the connection, DRAIN takes the head after it, and CFG finds Q empty (R30, R68). -/
theorem Effect.queue {s t : State} (hinv : Inv s) (h : Effect s t) :
    t.q = s.q ∨ (∃ e, t.q = s.q ++ [e] ∧ s.q.length < s.cfg.maxq ∧ s.conn = .connecting) ∨
      ∃ e, s.q = e :: t.q ∧ s.conn = .connected := by
  cases h with
  | constructed r c hc => exact .inl (by rw [construct_spec, (hinv.2 hc).q])
  | queued e hc hconn hroom =>
    have hconnecting : s.conn = .connecting := by
      cases hcase : s.conn with
      | disconnected => exact absurd hcase (hinv.1 hc).opened
      | connecting => rfl
      | connected => exact absurd hcase hconn
    exact .inr (.inl ⟨e, rfl, hroom, hconnecting⟩)
  | sent _ _ hcore => exact .inl hcore.keeps.q
  | drained e rest _ hconn hq hcore => exact .inr (.inr ⟨e, by rw [hcore.keeps.q, hq], hconn⟩)
  | rejected e rest _ _ hconn hq => exact .inr (.inr ⟨e, hq, hconn⟩)
  | _ => exact .inl rfl

/-- Settles O15: what each effect does to Q. -/
theorem queueMovesFirstInFirstOut : Obligations.QueueMovesFirstInFirstOut := by
  unfold Obligations.QueueMovesFirstInFirstOut
  intro s t hinv h hnot
  rcases step_effect h with ⟨hreset, -⟩ | ⟨a, u, hsa, heffect, ⟨_, _, _, _, _, rfl⟩⟩
  · exact absurd hreset hnot
  · have hqueue := heffect.queue (hinv.of_sameBlock hsa)
    obtain ⟨_, _, _, _, _, rfl⟩ := hsa
    exact hqueue

end Sys2Proof.Machine
end

section
/-! Grids and buffers (O36, O38, O39, O43, O45, O52): the quadrants of ROTATE, the involutions, the resampler byte by byte,
the slices of a fan-out, and SETCONTENT. -/

namespace Sys2Proof.Machine

/-! ## Quarter turns (R120, R121) -/

/-- The pixels of a quarter turn, over a stated size. -/
theorem GridOf.pixel_rot90 {g : Grid} {h w i j : Nat} (hg : GridOf g h w) (hi : i < w) (hj : j < h) :
    pixel (Machine.rot90 g) i j = pixel g (h - 1 - j) i := by
  obtain ⟨-, rfl, rfl⟩ := hg
  exact Machine.pixel_rot90 g hi hj

/-- Two quarter turns reverse both axes. -/
theorem GridOf.pixel_halfTurn {g : Grid} {h w y x : Nat} (hg : GridOf g h w) (hy : y < h) (hx : x < w) :
    pixel (Machine.rot90 (Machine.rot90 g)) y x = pixel g (h - 1 - y) (w - 1 - x) := by
  rw [hg.rot90.pixel_rot90 hy hx, hg.pixel_rot90 (by omega) hy]

/-- Three quarter turns: a half turn, then one more. -/
theorem GridOf.pixel_threeTurns {g : Grid} {h w i j : Nat} (hg : GridOf g h w) (hi : i < w) (hj : j < h) :
    pixel (Machine.rot90 (Machine.rot90 (Machine.rot90 g))) i j = pixel g j (w - 1 - i) := by
  rw [hg.rot90.rot90.pixel_rot90 hi hj, hg.pixel_halfTurn (by omega) hi, show h - 1 - (h - 1 - j) = j by omega]

/-- Four quarter turns are two half turns, which reverse both axes twice. -/
theorem rot90_four {g : Grid} (hg : gridOk g = true) : rot90 (rot90 (rot90 (rot90 g))) = g := by
  have hsize : GridOf g (rowsOf g) (colsOf g) := ⟨hg, rfl, rfl⟩
  refine grid_ext hsize.rot90.rot90.rot90.rot90.hasSize hsize.hasSize fun y hy x hx => ?_
  rw [hsize.rot90.rot90.pixel_halfTurn hy hx, hsize.pixel_halfTurn (by omega) (by omega)]
  congr 1 <;> omega

/-- ROTATE turns as often as the remainder of the degrees holds 90 (R121). -/
theorem rotate_of_emod {degrees : Int} {n : Nat} (h : degrees % 360 = 90 * n) (g : Grid) :
    rotate g degrees = quarterTurns n g := by
  rw [rotate, h]
  congr 1
  omega

theorem exec_rotate {g : Grid} {degrees : Int} (hg : gridOk g = true) (ha : degrees % 90 = 0) (s : State) :
    exec (.rotate g degrees) s = .next (ret (.grid (rotate g degrees)) s) :=
  (if_pos hg).trans (if_pos (by simpa [angleOk] using ha))

theorem exec_rotate_refused {g : Grid} {degrees : Int} (hg : gridOk g = true) (ha : degrees % 90 ≠ 0) (s : State) :
    exec (.rotate g degrees) s = .refused .rotationAngle := (if_pos hg).trans (if_neg (by simpa [angleOk] using ha))

/-- Settles O38: each quadrant is 0, 1, 2 or 3 quarter turns. -/
theorem rotateClosedForms : Obligations.RotateClosedForms := by
  unfold Obligations.RotateClosedForms
  intro s g degrees hg
  have hsize : GridOf g (rowsOf g) (colsOf g) := ⟨hg, rfl, rfl⟩
  refine ⟨fun ha => exec_rotate_refused hg ha s, fun ha => ⟨rotate g degrees, exec_rotate hg ha s, fun h => ?_,
    fun h => ?_, fun h => ?_, fun h => ?_⟩, rot90_four hg⟩
  · rw [rotate_of_emod (n := 0) h]
    rfl
  · rw [rotate_of_emod (n := 1) h]
    exact ⟨hsize.rot90.hasSize, fun i hi j hj => hsize.pixel_rot90 hi hj⟩
  · rw [rotate_of_emod (n := 2) h]
    exact ⟨hsize.rot90.rot90.hasSize, fun y hy x hx => hsize.pixel_halfTurn hy hx⟩
  · rw [rotate_of_emod (n := 3) h]
    exact ⟨hsize.rot90.rot90.rot90.hasSize, fun i hi j hj => hsize.pixel_threeTurns hi hj⟩

/-! ## Mirror and complement (R122, R123) -/

theorem GridOf.pixel_mirror {g : Grid} {h w y x : Nat} (hg : GridOf g h w) (hy : y < h) (hx : x < w) :
    pixel (Machine.mirror g) y x = pixel g y (w - 1 - x) := by
  obtain ⟨-, rfl, rfl⟩ := hg
  exact Machine.pixel_mirror g hy hx

theorem GridOf.pixel_invert {g : Grid} {h w y x : Nat} (hg : GridOf g h w) (hy : y < h) (hx : x < w) :
    pixel (Machine.invert g) y x = !pixel g y x := by
  obtain ⟨-, rfl, rfl⟩ := hg
  exact Machine.pixel_invert g hy hx

theorem GridOf.ext {a b : Grid} {h w : Nat} (ha : GridOf a h w) (hb : GridOf b h w)
    (hp : ∀ y < h, ∀ x < w, pixel a y x = pixel b y x) : a = b := grid_ext ha.hasSize hb.hasSize hp

theorem GridOf.mirror_mirror {g : Grid} {h w : Nat} (hg : GridOf g h w) : Machine.mirror (Machine.mirror g) = g := by
  refine hg.mirror.mirror.ext hg fun y hy x hx => ?_
  rw [hg.mirror.pixel_mirror hy hx, hg.pixel_mirror hy (by omega), show w - 1 - (w - 1 - x) = x by omega]

theorem GridOf.invert_invert {g : Grid} {h w : Nat} (hg : GridOf g h w) : Machine.invert (Machine.invert g) = g := by
  refine hg.invert.invert.ext hg fun y hy x hx => ?_
  rw [hg.invert.pixel_invert hy hx, hg.pixel_invert hy hx, Bool.not_not]

theorem GridOf.invert_mirror {g : Grid} {h w : Nat} (hg : GridOf g h w) :
    Machine.invert (Machine.mirror g) = Machine.mirror (Machine.invert g) := by
  refine hg.mirror.invert.ext hg.invert.mirror fun y hy x hx => ?_
  rw [hg.mirror.pixel_invert hy hx, hg.pixel_mirror hy hx, hg.invert.pixel_mirror hy hx, hg.pixel_invert hy (by omega)]

theorem GridOf.invert_rot90 {g : Grid} {h w : Nat} (hg : GridOf g h w) :
    Machine.invert (Machine.rot90 g) = Machine.rot90 (Machine.invert g) := by
  refine hg.rot90.invert.ext hg.invert.rot90 fun i hi j hj => ?_
  rw [hg.rot90.pixel_invert hi hj, hg.pixel_rot90 hi hj, hg.invert.pixel_rot90 hi hj, hg.pixel_invert (by omega) hi]

theorem quarterTurns_gridOk {g : Grid} (hg : gridOk g = true) (n : Nat) : gridOk (quarterTurns n g) = true := by
  induction n with
  | zero => exact hg
  | succ n ih => exact (rot90_gridOk ih).1

theorem invert_quarterTurns {g : Grid} (hg : gridOk g = true) (n : Nat) :
    invert (quarterTurns n g) = quarterTurns n (invert g) := by
  induction n with
  | zero => rfl
  | succ n ih =>
    have hsize : GridOf (quarterTurns n g) _ _ := ⟨quarterTurns_gridOk hg n, rfl, rfl⟩
    rw [quarterTurns, quarterTurns, hsize.invert_rot90, ih]

theorem exec_mirror {g : Grid} (hg : gridOk g = true) (s : State) :
    exec (.mirror g) s = .next (ret (.grid (mirror g)) s) := if_pos hg

theorem exec_invert {g : Grid} (hg : gridOk g = true) (s : State) :
    exec (.invert g) s = .next (ret (.grid (invert g)) s) := if_pos hg

/-- Settles O39: the pixels of the two functions; their laws follow pixel by pixel. -/
theorem mirrorAndInvertPixels : Obligations.MirrorAndInvertPixels := by
  unfold Obligations.MirrorAndInvertPixels
  intro s g degrees hg
  have hsize : GridOf g (rowsOf g) (colsOf g) := ⟨hg, rfl, rfl⟩
  refine ⟨⟨mirror g, exec_mirror hg s, hsize.mirror.hasSize, fun y hy x hx => hsize.pixel_mirror hy hx, ?_⟩,
    ⟨invert g, exec_invert hg s, hsize.invert.hasSize, fun y hy x hx => hsize.pixel_invert hy hx, ?_⟩,
    hsize.invert_mirror, invert_quarterTurns hg _⟩
  · rw [exec_mirror hsize.mirror.1, hsize.mirror_mirror]
    rfl
  · rw [exec_invert hsize.invert.1, hsize.invert_invert]
    rfl

/-! ## Resampling a buffer (R127, R128) -/

theorem rgbaOk_iff {buf : List Byte} {w h : Nat} :
    rgbaOk buf w h = true ↔ 1 ≤ w ∧ 1 ≤ h ∧ buf.length = 4 * w * h := by
  simp [rgbaOk, and_assoc]

/-- A component of a pixel of the picture lies in its buffer (R62). -/
theorem rgbaOffset_lt {w h y x k : Nat} (hy : y < h) (hx : x < w) (hk : k < 4) : rgbaOffset w y x k < 4 * w * h := by
  have hpixel : y * w + x + 1 ≤ w * h := by nlinarith
  unfold rgbaOffset
  nlinarith

/-- The four bytes RESIZE copies for one target pixel. -/
def resizePixel (buf : List Byte) (w h w2 h2 y2 x2 : Nat) : List Byte :=
  (List.range 4).map fun k => memRead buf (rgbaOffset w (sampleIndex y2 h h2) (sampleIndex x2 w w2) k)

theorem resize_eq {w h w2 h2 : Nat} (hne : ¬(w2 = w ∧ h2 = h)) (buf : List Byte) :
    resize buf w h w2 h2 =
      (List.range h2).flatMap fun y2 => (List.range w2).flatMap (resizePixel buf w h w2 h2 y2) := if_neg hne

/-- Where RESIZE puts the bytes when the sizes differ: a block of `4 * w2` bytes a row, of 4 bytes a pixel. -/
theorem resize_blocks {w h w2 h2 : Nat} (hne : ¬(w2 = w ∧ h2 = h)) (buf : List Byte) :
    (resize buf w h w2 h2).length = 4 * w2 * h2 ∧
      ∀ y2 < h2, ∀ x2 < w2, ∀ k < 4, (resize buf w h w2 h2)[rgbaOffset w2 y2 x2 k]? =
        some (memRead buf (rgbaOffset w (sampleIndex y2 h h2) (sampleIndex x2 w w2) k)) := by
  have hrow (y2 : Nat) := flatMap_blocks w2 4 (resizePixel buf w h w2 h2 y2) fun x2 _ => by simp [resizePixel]
  obtain ⟨hlen, helem⟩ := flatMap_blocks h2 (w2 * 4)
    (fun y2 => (List.range w2).flatMap (resizePixel buf w h w2 h2 y2)) fun y2 _ => (hrow y2).1
  rw [resize_eq hne]
  refine ⟨hlen.trans (by ring), fun y2 hy x2 hx k hk => ?_⟩
  rw [show rgbaOffset w2 y2 x2 k = y2 * (w2 * 4) + (x2 * 4 + k) by unfold rgbaOffset; ring,
    helem y2 hy _ (by omega), (hrow y2).2 x2 hx k hk]
  simp [resizePixel, hk]

theorem memRead_of_lt {buf : List Byte} {off : Nat} (h : off < buf.length) : buf[off]? = some (memRead buf off) := by
  simp [memRead, h]

/-- RESIZE gives `4 * w2 * h2` bytes; each is the byte of the sampled source pixel, also when the sizes are equal. -/
theorem resize_spec {buf : List Byte} {w h : Nat} (hb : rgbaOk buf w h = true) (w2 h2 : Nat) :
    (resize buf w h w2 h2).length = 4 * w2 * h2 ∧
      ∀ y2 < h2, ∀ x2 < w2, ∀ k < 4, (resize buf w h w2 h2)[rgbaOffset w2 y2 x2 k]? =
        buf[rgbaOffset w (sampleIndex y2 h h2) (sampleIndex x2 w w2) k]? := by
  obtain ⟨hw, hh, hlen⟩ := rgbaOk_iff.mp hb
  by_cases heq : w2 = w ∧ h2 = h
  · obtain ⟨rfl, rfl⟩ := heq
    rw [resize_self]
    exact ⟨hlen, fun y2 hy x2 hx k _ => by rw [sampleIndex_self hy, sampleIndex_self hx]⟩
  · obtain ⟨hrlen, hbytes⟩ := resize_blocks heq buf
    refine ⟨hrlen, fun y2 hy x2 hx k hk => (hbytes y2 hy x2 hx k hk).trans (memRead_of_lt ?_).symm⟩
    rw [hlen]
    exact rgbaOffset_lt (sampleIndex_lt hy hh) (sampleIndex_lt hx hw) hk

theorem exec_resize {buf : List Byte} {w h w2 h2 : Nat} (hb : rgbaOk buf w h = true) (hw : 1 ≤ w2) (hh : 1 ≤ h2)
    (s : State) : exec (.resize buf w h w2 h2) s = .next (ret (.bytes (resize buf w h w2 h2)) s) :=
  if_pos (by simp [hb, hw, hh])

/-- Settles O43: the bytes of `resize_spec`, whose sampled indices are in range. -/
theorem resizeSamplesNearest : Obligations.ResizeSamplesNearest := by
  unfold Obligations.ResizeSamplesNearest
  intro s buf w h w2 h2 hb hw2 hh2
  obtain ⟨hw, hh, -⟩ := rgbaOk_iff.mp hb
  obtain ⟨hlen, hbytes⟩ := resize_spec hb w2 h2
  refine ⟨resize buf w h w2 h2, exec_resize hb hw2 hh2 s, hlen, ?_, fun y2 hy x2 hx =>
    ⟨sampleIndex_lt hy hh, sampleIndex_lt hx hw, fun k hk => hbytes y2 hy x2 hx k hk⟩⟩
  rintro rfl rfl
  exact resize_self buf w2 h2

/-- A byte of the resized buffer is the byte of the sampled pixel. -/
theorem memRead_resize {buf : List Byte} {w h w2 h2 y2 x2 k : Nat} (hb : rgbaOk buf w h = true) (hy : y2 < h2)
    (hx : x2 < w2) (hk : k < 4) :
    memRead (resize buf w h w2 h2) (rgbaOffset w2 y2 x2 k) =
      memRead buf (rgbaOffset w (sampleIndex y2 h h2) (sampleIndex x2 w w2) k) := by
  simp only [memRead, List.getD_eq_getElem?_getD, (resize_spec hb w2 h2).2 y2 hy x2 hx k hk]

/-- Settles O45: both sides threshold the three bytes of the sampled source pixel. -/
theorem thresholdCommutesWithResize : Obligations.ThresholdCommutesWithResize := by
  unfold Obligations.ThresholdCommutesWithResize
  intro buf w h w2 h2 hb _ _
  obtain ⟨hw, hh, -⟩ := rgbaOk_iff.mp hb
  obtain ⟨-, hrows, hcols⟩ := gridOf_rgbaToBinary buf hw hh
  refine grid_ext (hasSize_tabulate h2 w2 _) (hasSize_tabulate h2 w2 _) fun y2 hy x2 hx => ?_
  rw [pixel_resizeGrid _ hy hx, hrows, hcols, pixel_rgbaToBinary buf (sampleIndex_lt hy hh) (sampleIndex_lt hx hw),
    pixel_rgbaToBinary _ hy hx, memRead_resize hb hy hx (by decide), memRead_resize hb hy hx (by decide),
    memRead_resize hb hy hx (by decide)]

/-! ## Slices (R184, R213) -/

/-- A slice has the region's size and pixels. -/
theorem sliceGrid_spec (g : Grid) (r c th tw : Nat) :
    hasSize (sliceGrid g r c th tw) th tw = true ∧
      ∀ y < th, ∀ x < tw, pixel (sliceGrid g r c th tw) y x = pixel g (r * th + y) (c * tw + x) :=
  ⟨hasSize_tabulate _ _ _, fun y hy x hx => (pixel_tabulate _ _ _ y x).trans (if_pos ⟨hy, hx⟩)⟩

theorem exec_slice {g : Grid} {r c th tw : Nat} (h : sliceOk g r c th tw = true) (s : State) :
    exec (.slice g r c th tw) s = .next (ret (.grid (sliceGrid g r c th tw)) s) := if_pos h

theorem exec_segslice {gv gh : Grid} {r c : Nat} {s : State} (hc : s.cfgd = true)
    (hv : sliceOk gv r c (2 * s.cfg.ph) (2 * s.cfg.pw) = true) (hh : sliceOk gh r c (3 * s.cfg.ph) s.cfg.pw = true) :
    exec (.segslice gv gh r c) s = .next (ret (.grids (segSliceV s.cfg gv r c) (segSliceH s.cfg gh r c)) s) :=
  (if_pos hc).trans (if_pos (by simp [hv, hh]))

/-- Settles O36: SEGSLICE's halves are slices of its two grids. -/
theorem sliceRegions : Obligations.SliceRegions := by
  unfold Obligations.SliceRegions
  refine ⟨fun s g r c th tw h => ?_, fun s gv gh r c hc hv hh => ?_⟩
  · obtain ⟨hsize, hpixels⟩ := sliceGrid_spec g r c th tw
    exact ⟨sliceGrid g r c th tw, exec_slice h s, hsize, hpixels⟩
  · obtain ⟨hvsize, hvpixels⟩ := sliceGrid_spec gv r c (2 * s.cfg.ph) (2 * s.cfg.pw)
    obtain ⟨hhsize, hhpixels⟩ := sliceGrid_spec gh r c (3 * s.cfg.ph) s.cfg.pw
    exact ⟨_, _, exec_segslice hc hv hh, hvsize, hhsize, hvpixels, hhpixels⟩

/-! ## SETCONTENT (R150) -/

theorem exec_setcontent {r c : Nat} {s : State} {p : Panel} (hc : s.cfgd = true) (hp : s.cfg.ptype ≠ .seg)
    (hpanel : getPanel s r c = some p) (g : Grid) :
    exec (.setcontent r c g) s = .next (ret .nothing (setContent r c g s)) := by
  change execSetcontent r c g s = _
  simp [execSetcontent, hc, hp, hpanel]

/-- Settles O52: SETCONTENT is a panel write of the whole grid. -/
theorem setContentReplacesOneRegister : Obligations.SetContentReplacesOneRegister := by
  unfold Obligations.SetContentReplacesOneRegister
  intro s r c g p hc hp hpanel
  have hwrite := setContent_write r c g s
  exact ⟨_, exec_setcontent hc hp hpanel g, hwrite.ret_eq .nothing, getPanel_putPanel_same hpanel (.dot g),
    hwrite.other⟩

end Sys2Proof.Machine
end

section
/-! Wire rows and stops (O57 to O60): the bytes a wire frame gives, and where each row faults or is refused. -/

namespace Sys2Proof.Machine

/-! ## Wire rows (R95 to R97) -/

/-- A digit as a byte is the byte of its value (R97). -/
theorem digitByte_eq_ofNat (v : BitVec 7) : digitByte v = BitVec.ofNat 8 v.toNat :=
  BitVec.eq_of_toNat_eq (by simp [digitByte])

/-- A Segmented frame, its data the bytes of the digit values. -/
theorem segFrame_eq (flush : Bool) (addr : Byte) (digits : List (BitVec 7)) :
    typeAFrame flush addr (digits.map digitByte) =
      0x80 :: (if flush then 0x83 else 0x84) :: addr :: ((digits.map fun d => BitVec.ofNat 8 d.toNat) ++ [0x8F]) := by
  rw [typeAFrame_eq, List.map_congr_left fun v _ => digitByte_eq_ofNat v]

/-- Settles O57: a frame with data is not refused, and its bytes are those of the frame's layout. -/
theorem wireRowsEmitTheirBytes : Obligations.WireRowsEmitTheirBytes := by
  unfold Obligations.WireRowsEmitTheirBytes
  have runs {α : Type} {l : List α} {o o' : Host.Outcome State Fault Refusal} (hl : l ≠ []) :
      (if l.isEmpty then o else o') = o' := if_neg (by simpa using hl)
  refine ⟨fun s addr data hd => ⟨runs hd, runs hd, ?_⟩, fun s addr digits hd => ⟨?_, ?_⟩⟩
  · have hrow : exec (.typeb addr data) s = .next (ret (.bytes (typeBFrame addr data)) s) := runs hd
    rw [hrow, typeBFrame_eq]
    rfl
  · have hrow : exec (.segFlush addr digits) s =
        .next (ret (.bytes (typeAFrame true addr (digits.map digitByte))) s) := runs hd
    rw [hrow, segFrame_eq]
    rfl
  · have hrow : exec (.segBuffer addr digits) s =
        .next (ret (.bytes (typeAFrame false addr (digits.map digitByte))) s) := runs hd
    rw [hrow, segFrame_eq]
    rfl

/-! ## Operands outside a rule's domain (log 12) -/

/-- A row that tests its operands first refuses those that fail the test. -/
theorem refused_of_false {b : Bool} (hb : b = false) (o : Host.Outcome State Fault Refusal) (r : Refusal) :
    (if b = true then o else .refused r) = .refused r := by rw [hb]; rfl

/-- Settles O58: each row's test of its operands is false. -/
theorem stopsOutsideTheDomain : Obligations.StopsOutsideTheDomain := by
  unfold Obligations.StopsOutsideTheDomain
  refine ⟨fun s g hg => ⟨fun degrees axis order w2 h2 b => ?_, fun hc => ?_⟩, fun s f v fs hf => ⟨?_, fun hmem => ?_⟩,
    fun s => rfl, fun s g buf w h w2 h2 => ⟨fun hb => ⟨?_, ?_⟩, fun hzero => ⟨?_, ?_⟩⟩,
    fun s g r c th tw hs => refused_of_false hs _ _, fun s addr => ⟨rfl, rfl, rfl, rfl, rfl⟩⟩
  · exact ⟨refused_of_false hg _ _, refused_of_false hg _ _, refused_of_false hg _ _, refused_of_false hg _ _,
      refused_of_false hg _ _, refused_of_false (by simp [hg]) _ _, refused_of_false (by simp [hg]) _ _,
      refused_of_false (by simp [hg]) _ _⟩
  · exact (if_pos hc).trans (refused_of_false hg _ _)
  · exact ⟨refused_of_false hf _ _, refused_of_false hf _ _, refused_of_false (by simp [hf]) _ _,
      refused_of_false (by simp [hf]) _ _⟩
  · have hall : fs.all frameOk = false := List.all_eq_false.mpr ⟨f, hmem, by simp [hf]⟩
    exact refused_of_false (by simp [hall]) _ _
  · exact refused_of_false hb _ _
  · exact refused_of_false (by simp [hb]) _ _
  · exact refused_of_false (by rcases hzero with rfl | rfl <;> simp) _ _
  · exact refused_of_false (by rcases hzero with rfl | rfl <;> simp) _ _

/-! ## Sub-steps (logs 10, 12, 14, 15, 27) -/

/-- A row that reads a configuration register faults while CFGD = 0 (R22, R32; log 10). -/
theorem fault_of_unconfigured {s : State} (hc : s.cfgd = false) (o : Host.Outcome State Fault Refusal) :
    (if s.cfgd = true then o else .fault .unconfigured) = .fault .unconfigured := by rw [hc]; rfl

theorem exec_fanout_seg {s : State} (hc : s.cfgd = true) (hp : s.cfg.ptype = .seg) (g : Grid) (flush : Bool) :
    exec (.fanout g flush) s = .refused .wrongPanelType := (if_pos hc).trans (if_pos hp)

theorem exec_dotcore_seg {s : State} (hc : s.cfgd = true) (hp : s.cfg.ptype = .seg) (f : Frame) (flush : Bool)
    (now : Nat) : exec (.dotcore f flush now) s = .refused .wrongPanelType := (if_pos hc).trans (if_pos hp)

theorem exec_segfanout_dot {s : State} (hc : s.cfgd = true) (hp : s.cfg.ptype ≠ .seg) (gv gh : Grid) (flush : Bool) :
    exec (.segfanout gv gh flush) s = .refused .wrongPanelType := (if_pos hc).trans (if_pos hp)

theorem exec_segcore_dot {s : State} (hc : s.cfgd = true) (hp : s.cfg.ptype ≠ .seg) (f : Frame) (flush : Bool)
    (now : Nat) : exec (.segcore f flush now) s = .refused .wrongPanelType := (if_pos hc).trans (if_pos hp)

theorem exec_fanout_size {s : State} {g : Grid} (hc : s.cfgd = true) (hp : s.cfg.ptype ≠ .seg)
    (hs : hasSize g (geomOf s.cfg).devH (geomOf s.cfg).devW = false) (flush : Bool) :
    exec (.fanout g flush) s = .refused .gridSize :=
  (if_pos hc).trans ((if_neg hp).trans (refused_of_false hs _ _))

theorem exec_segfanout_size {s : State} {gv gh : Grid} (hc : s.cfgd = true) (hp : s.cfg.ptype = .seg)
    (hs : hasSize gv (segGeomOf s.cfg).vh (segGeomOf s.cfg).vw = false ∨
      hasSize gh (segGeomOf s.cfg).hh (segGeomOf s.cfg).hw = false) (flush : Bool) :
    exec (.segfanout gv gh flush) s = .refused .gridSize :=
  (if_pos hc).trans ((if_neg (not_not.mpr hp)).trans
    (refused_of_false (by rcases hs with hs | hs <;> simp [hs]) _ _))

/-- Settles O59: the first test that fails names each stop. -/
theorem stopsOfSubSteps : Obligations.StopsOfSubSteps := by
  unfold Obligations.StopsOfSubSteps
  refine ⟨fun s g gv gh f fp flush now r c hc => ?_, fun s g gv gh f flush now hc => ⟨fun hp => ?_, fun hp => ?_⟩,
    fun s f e hc hv => ?_, fun s gv gh r c hc hs => ?_, fun s c rest e hs hd hop => ?_⟩
  · have stops (o : Host.Outcome State Fault Refusal) := fault_of_unconfigured hc o
    exact ⟨stops _, stops _, stops _, stops _, stops _, stops _, stops _, stops _, stops _, stops _, stops _, stops _,
      stops _, stops _, stops _⟩
  · exact ⟨exec_fanout_seg hc hp g flush, exec_dotcore_seg hc hp f flush now,
      fun hs => exec_segfanout_size hc hp hs flush⟩
  · exact ⟨exec_segfanout_dot hc hp gv gh flush, exec_segcore_dot hc hp f flush now,
      fun hs => exec_fanout_size hc hp hs flush⟩
  · have hrejected : ¬validateFrame s.cfg f = none := by simp [hv]
    exact ⟨(if_pos hc).trans (if_neg hrejected), (if_pos hc).trans (if_neg hrejected)⟩
  · exact (if_pos hc).trans (refused_of_false (by rcases hs with hs | hs <;> simp [hs]) _ _)
  · cases e with
    | illegalOp op => exact absurd rfl (hop op)
    | _ => simp [step, hs, hd]

/-! ## Panel registers (logs 10 to 14) -/

/-- ENCODE answers whatever the three encoder rows all answer. -/
theorem exec_encode_of_all {r c : Nat} {flush : Bool} {s : State} {o : Host.Outcome State Fault Refusal}
    (ha : exec (.enca r c flush) s = o) (hb : exec (.encb r c flush) s = o) (hseg : exec (.encseg r c flush) s = o) :
    exec (.encode r c flush) s = o := by
  rw [exec_encode]
  cases s.cfg.ptype with
  | a => exact ha
  | b => exact hb
  | seg => exact hseg

theorem dotPanelFrame_absent {s : State} {r c : Nat} (hc : s.cfgd = true) (hn : getPanel s r c = none)
    (variant : PanelType) (enc : Byte → Grid → Bool → List Byte) (flush : Bool) :
    dotPanelFrame variant enc r c flush s = .fault .noSuchPanel := by
  simp [dotPanelFrame, hc, hn]

theorem segPanelFrame_absent {s : State} {r c : Nat} (hc : s.cfgd = true) (hn : getPanel s r c = none)
    (flush : Bool) : segPanelFrame r c flush s = .fault .noSuchPanel := by
  simp [segPanelFrame, hc, hn]

/-- The encoder of a pixel variant is refused on a Display of another type. -/
theorem dotPanelFrame_otherType {s : State} {r c : Nat} {p : Panel} {variant : PanelType} (hc : s.cfgd = true)
    (hpanel : getPanel s r c = some p) (hp : s.cfg.ptype ≠ variant) (enc : Byte → Grid → Bool → List Byte)
    (flush : Bool) : dotPanelFrame variant enc r c flush s = .refused .wrongPanelType := by
  cases p <;> simp [dotPanelFrame, hc, hpanel, hp]

theorem segPanelFrame_otherType {s : State} {r c : Nat} {p : Panel} (hc : s.cfgd = true)
    (hpanel : getPanel s r c = some p) (hp : s.cfg.ptype ≠ .seg) (flush : Bool) :
    segPanelFrame r c flush s = .refused .wrongPanelType := by
  cases p <;> simp [segPanelFrame, hc, hpanel, hp]

/-- A register that holds no grid of the common domain has no packed columns. -/
theorem dotPanelFrame_noGrid {s : State} {r c : Nat} {g : Grid} {variant : PanelType} (hc : s.cfgd = true)
    (hpanel : getPanel s r c = some (.dot g)) (hp : s.cfg.ptype = variant) (hg : gridOk g = false)
    (enc : Byte → Grid → Bool → List Byte) (flush : Bool) :
    dotPanelFrame variant enc r c flush s = .refused .outsideDomain := by
  simp [dotPanelFrame, hc, hpanel, hp, hg]

/-- A register of more than 8 rows is not packed (R129). -/
theorem dotPanelFrame_tooHigh {s : State} {r c : Nat} {g : Grid} {variant : PanelType} (hc : s.cfgd = true)
    (hpanel : getPanel s r c = some (.dot g)) (hp : s.cfg.ptype = variant) (hg : gridOk g = true)
    (hrows : 8 < rowsOf g) (enc : Byte → Grid → Bool → List Byte) (flush : Bool) :
    dotPanelFrame variant enc r c flush s = .refused .packRange := by
  have hpack : packOk g .columns = false := decide_eq_false (Nat.not_le.mpr hrows)
  simp [dotPanelFrame, hc, hpanel, hp, hg, hpack]

theorem segPanelFrame_dot {s : State} {r c : Nat} {g : Grid} (hc : s.cfgd = true)
    (hpanel : getPanel s r c = some (.dot g)) (flush : Bool) :
    segPanelFrame r c flush s = .refused .wrongPanelType := by
  simp [segPanelFrame, hc, hpanel]

/-- The three writes of a register that the layout does not have. -/
theorem panelWrites_absent {s : State} {r c : Nat} (hc : s.cfgd = true) (hn : getPanel s r c = none) (g : Grid) :
    execSetcontent r c g s = .fault .noSuchPanel ∧ execSetvert r c g s = .fault .noSuchPanel ∧
      execSethoriz r c g s = .fault .noSuchPanel := by
  simp [execSetcontent, execSetvert, execSethoriz, hc, hn]

/-- The two segment writes on a Display of DotPanels. -/
theorem segmentWrites_otherType {s : State} {r c : Nat} {p : Panel} (hc : s.cfgd = true)
    (hpanel : getPanel s r c = some p) (hp : s.cfg.ptype ≠ .seg) (g : Grid) :
    execSetvert r c g s = .refused .wrongPanelType ∧ execSethoriz r c g s = .refused .wrongPanelType := by
  cases p <;> simp [execSetvert, execSethoriz, hc, hpanel, hp]

theorem execSetcontent_seg {s : State} {r c : Nat} {p : Panel} (hc : s.cfgd = true)
    (hpanel : getPanel s r c = some p) (hp : s.cfg.ptype = .seg) (g : Grid) :
    execSetcontent r c g s = .refused .wrongPanelType := by
  simp [execSetcontent, hc, hpanel, hp]

theorem execSetvert_size {s : State} {r c : Nat} {digits : List (List Segs)} {g : Grid} (hc : s.cfgd = true)
    (hpanel : getPanel s r c = some (.seg digits)) (hp : s.cfg.ptype = .seg)
    (hs : hasSize g (2 * s.cfg.ph) (2 * s.cfg.pw) = false) : execSetvert r c g s = .refused .outsideDomain := by
  simp [execSetvert, hc, hpanel, hp, hs]

theorem execSethoriz_size {s : State} {r c : Nat} {digits : List (List Segs)} {g : Grid} (hc : s.cfgd = true)
    (hpanel : getPanel s r c = some (.seg digits)) (hp : s.cfg.ptype = .seg)
    (hs : hasSize g (3 * s.cfg.ph) s.cfg.pw = false) : execSethoriz r c g s = .refused .outsideDomain := by
  simp [execSethoriz, hc, hpanel, hp, hs]

/-- Settles O60: the stops of the writes and of the encoders, ENCODE's by the encoder it selects. -/
theorem stopsOnPanelRegisters : Obligations.StopsOnPanelRegisters := by
  unfold Obligations.StopsOnPanelRegisters
  intro s r c g flush all
  refine ⟨fun hc => ?_, fun hc hn => ?_, fun p hc hpanel => ⟨?_, ?_, ?_, ?_⟩, fun digits hc hpanel hp => ⟨?_, ?_⟩,
    fun hp => by rw [exec_encode, hp], fun hp => by rw [exec_encode, hp], fun hp => by rw [exec_encode, hp],
    fun content hc hpanel => ⟨fun hp => ⟨?_, ?_⟩, fun hp => ⟨?_, ?_⟩, fun _ => ?_⟩⟩
  · have stops (o : Host.Outcome State Fault Refusal) := fault_of_unconfigured hc o
    exact ⟨stops _, stops _, stops _, stops _, stops _, stops _, exec_encode_of_all (stops _) (stops _) (stops _)⟩
  · obtain ⟨hcontent, hvert, hhoriz⟩ := panelWrites_absent hc hn g
    have ha := dotPanelFrame_absent hc hn .a encA flush
    have hb := dotPanelFrame_absent hc hn .b encB flush
    have hseg := segPanelFrame_absent hc hn flush
    exact ⟨hcontent, hvert, hhoriz, ha, hb, hseg, exec_encode_of_all ha hb hseg⟩
  · exact fun hp => execSetcontent_seg hc hpanel hp g
  · intro hp
    obtain ⟨hvert, hhoriz⟩ := segmentWrites_otherType hc hpanel hp g
    exact ⟨hvert, hhoriz, segPanelFrame_otherType hc hpanel hp flush⟩
  · exact fun hp => dotPanelFrame_otherType hc hpanel hp encA flush
  · exact fun hp => dotPanelFrame_otherType hc hpanel hp encB flush
  · exact fun hs => execSetvert_size hc hpanel hp hs
  · exact fun hs => execSethoriz_size hc hpanel hp hs
  · exact fun hg => dotPanelFrame_noGrid hc hpanel hp hg encA flush
  · exact fun hg hrows => dotPanelFrame_tooHigh hc hpanel hp hg hrows encA flush
  · exact fun hg => dotPanelFrame_noGrid hc hpanel hp hg encB flush
  · exact fun hg hrows => dotPanelFrame_tooHigh hc hpanel hp hg hrows encB flush
  · exact segPanelFrame_dot hc hpanel flush

end Sys2Proof.Machine
end
